-- ==== Sys2Proof/Word.lean ====
section
/-!
DEFINITION. The words of ODRV-CORE: unsigned words (spec/00_scope R13), the phase triple (R14) and the number type
`Num` of the spec, an IEEE 754 binary32 value (R16), here `F32`. Arithmetic is in Machine/Num.lean.
-/

namespace Sys2Proof

abbrev U8 := BitVec 8
abbrev U16 := BitVec 16
abbrev U32 := BitVec 32

/-- `PhaseTriple T` (R14): one value per motor phase, in the order a, b, c. -/
structure Triple (α : Type) where
  a : α
  b : α
  c : α
deriving DecidableEq, Repr, Inhabited

/-- A binary32 datum (R16). The encoding of R50's "binary32 bit pattern" is a bijection with these values
(`F32.toBits`, `F32.ofBits`): 255 exponent fields of finite data, two infinities, 2 x 8388607 NaNs. -/
inductive F32 where
  /-- sign, exponent field 0 to 254, fraction field -/
  | finite (neg : Bool) (expo : Fin 255) (frac : BitVec 23)
  | inf (neg : Bool)
  /-- a NaN; its fraction field is `payload + 1` -/
  | nan (neg : Bool) (payload : Fin 8388607)
deriving DecidableEq, Repr, Inhabited

/-- Which arithmetic operation a free NaN came from (R17: "which NaN an arithmetic operation returns is not
specified"). -/
inductive NumOp where
  | add
  | mul
  | div
deriving DecidableEq, Repr

end Sys2Proof
end

