-- ==== Sys2Proof/Syntax.lean ====
section
/-!
DEFINITION. The 38 operations of spec/opcode_table.json, the three word formats of spec/30_encoding R90, and the
closed enumerations of spec/30_encoding section 2.
-/

namespace Sys2Proof

/-- `ErrorKind` (R91), in the order of its numbers. -/
inductive ErrorKind where
  | phaseResistanceOutOfRange
  | phaseInductanceOutOfRange
  | unknownVbusVoltage
  | controllerInitializing
  | controllerFailed
  | brakeResistorDisarmed
  | controlDeadlineMissed
  | currentSenseSaturation
  | iLeakOutOfRange
  | currentLimitViolation
  | iBusOutOfRange
  | timerUpdateMissed
  | drvFault
deriving DecidableEq, Repr, Inhabited

/-- `LawSel` (R93). -/
inductive LawSel where
  | none
  | rmeas
  | lmeas
  | ext
deriving DecidableEq, Repr, Inhabited

/-- `CalState` (R102; spec/10_state R46). -/
inductive CalState where
  | idle
  | rWait
  | lWait
deriving DecidableEq, Repr, Inhabited

/-- `Role` (R102): `SENSE` 0, `COMMIT` 1. -/
inductive Role where
  | sense
  | commit
deriving DecidableEq, Repr, Inhabited

/-- `motor_type` as the rules that test it see it (R92): three members, or reserved. -/
inductive MotorType where
  | highCurrent
  | gimbal
  | acim
  | reserved
deriving DecidableEq, Repr, Inhabited

/-- The result of `LAW_MEAS` (R101). -/
inductive MeasResult where
  | success
  | err (k : ErrorKind)
deriving DecidableEq, Repr, Inhabited

/-- `ControlLawResult` (R101): a duty vector or an error kind. -/
inductive OutResult where
  | duty (d : Triple F32)
  | err (k : ErrorKind)
deriving DecidableEq, Repr, Inhabited

/-- The operations, one per row of the opcode table, in the table's order. A command's `sel` is kept as the 8 bits of
the word: which values are legal is `Instr.wf`, and an illegal one is rejected when the command runs (R103; log 11).
A micro-operation's word has no operand field: its operands are the machine's latches (log 7). -/
inductive Instr where
  | nop
  | arm (sel : U8)
  | disarm
  | disarmErr (sel : U8)
  | clrErr
  | evalLim
  | maxTorque
  | updGains
  | calRun
  | calR
  | calL
  | calPoll
  | cfgWr (sel : U8) (data : U32)
  | regRd (sel : U8)
  | getR
  | getL
  | upd (adcA adcB adcC : U32)
  | timEvent
  | applyPwm
  | sanitize
  | adc2amp
  | infer
  | dcfUpdate
  | dcfValid
  | correct
  | leakChk
  | magChk
  | ibusChk
  | duty2ccr
  | lawResetR
  | lawMeasR
  | lawOutR
  | lawResetL
  | lawMeasL
  | lawOutL
  | lawResetX
  | lawMeasX
  | lawOutX
deriving DecidableEq, Repr

/-- A word of one of the three formats (R90): the port tells the format. -/
inductive PortWord where
  | upd96 (w : BitVec 96)
  | cmd48 (w : BitVec 48)
  | uop8 (w : U8)
deriving DecidableEq, Repr

/-- Why a word is no row of the table (R103, R104; R97). -/
inductive DecodeError where
  /-- a `CMD48` whose `op` is not in the table of R96 -/
  | reservedOp (op : U8)
  /-- a `UOP8` code that R97 does not list -/
  | reservedUop (code : U8)
deriving DecidableEq, Repr

end Sys2Proof
end

