-- ==== Sys2Proof/WellFormed.lean ====
section
/-!
DEFINITION. Which operands of the commands are legal (spec/30_encoding R96, columns "sel" and "data"; R103).
-/

namespace Sys2Proof

/-- `ARM`: `LawSel` 1, 2 or 3. `DISARM_ERR`: kind number 0 to 12. `CFG_WR`: register number 0x00 to 0x0F. `REG_RD`:
register number 0x00 to 0x2F. No other operation has a restricted operand. -/
def Instr.wf : Instr → Bool
  | .arm sel => decide (1 ≤ sel.toNat) && decide (sel.toNat ≤ 3)
  | .disarmErr sel => decide (sel.toNat ≤ 12)
  | .cfgWr sel _ => decide (sel.toNat ≤ 0x0F)
  | .regRd sel => decide (sel.toNat ≤ 0x2F)
  | .nop | .disarm | .clrErr | .evalLim | .maxTorque | .updGains | .calRun | .calR | .calL | .calPoll | .getR | .getL
  | .upd _ _ _ | .timEvent | .applyPwm | .sanitize | .adc2amp | .infer | .dcfUpdate | .dcfValid | .correct | .leakChk
  | .magChk | .ibusChk | .duty2ccr | .lawResetR | .lawMeasR | .lawOutR | .lawResetL | .lawMeasL | .lawOutL | .lawResetX
  | .lawMeasX | .lawOutX => true

end Sys2Proof
end

