-- ==== Sys2Proof/Decode.lean ====
section
/-!
DEFINITION. Decoding (total, rejecting by name) and encoding of the three word formats (spec/30_encoding R90 to R97,
R103 to R105).
-/

namespace Sys2Proof

/-- `CMD48` fields (R95): `op` 47:40, `sel` 39:32, `data` 31:0. -/
def cmdOp (w : BitVec 48) : U8 := w.extractLsb' 40 8
def cmdSel (w : BitVec 48) : U8 := w.extractLsb' 32 8
def cmdData (w : BitVec 48) : U32 := w.extractLsb' 0 32

/-- A command word (R96). Fields a command does not use are ignored. -/
def decodeCmd (w : BitVec 48) : Except DecodeError Instr :=
  match cmdOp w with
  | 0x00#8 => .ok .nop
  | 0x01#8 => .ok (.arm (cmdSel w))
  | 0x02#8 => .ok .disarm
  | 0x03#8 => .ok (.disarmErr (cmdSel w))
  | 0x04#8 => .ok .clrErr
  | 0x05#8 => .ok .evalLim
  | 0x06#8 => .ok .maxTorque
  | 0x07#8 => .ok .updGains
  | 0x10#8 => .ok .calRun
  | 0x11#8 => .ok .calR
  | 0x12#8 => .ok .calL
  | 0x13#8 => .ok .calPoll
  | 0x20#8 => .ok (.cfgWr (cmdSel w) (cmdData w))
  | 0x21#8 => .ok (.regRd (cmdSel w))
  | 0x30#8 => .ok .getR
  | 0x31#8 => .ok .getL
  | op => .error (.reservedOp op)

/-- An event word (R94): `adc_a` 95:64, `adc_b` 63:32, `adc_c` 31:0; every pattern is a legal `UPD`. -/
def decodeUpd (w : BitVec 96) : Instr :=
  .upd (w.extractLsb' 64 32) (w.extractLsb' 32 32) (w.extractLsb' 0 32)

/-- A micro-operation code (R97). -/
def decodeUop (code : U8) : Except DecodeError Instr :=
  match code with
  | 0x80#8 => .ok .timEvent
  | 0x90#8 => .ok .applyPwm
  | 0x91#8 => .ok .sanitize
  | 0x92#8 => .ok .adc2amp
  | 0x93#8 => .ok .infer
  | 0x94#8 => .ok .dcfUpdate
  | 0x95#8 => .ok .dcfValid
  | 0x96#8 => .ok .correct
  | 0x97#8 => .ok .leakChk
  | 0x98#8 => .ok .magChk
  | 0x99#8 => .ok .ibusChk
  | 0x9A#8 => .ok .duty2ccr
  | 0xA0#8 => .ok .lawResetR
  | 0xA1#8 => .ok .lawMeasR
  | 0xA2#8 => .ok .lawOutR
  | 0xA4#8 => .ok .lawResetL
  | 0xA5#8 => .ok .lawMeasL
  | 0xA6#8 => .ok .lawOutL
  | 0xA8#8 => .ok .lawResetX
  | 0xA9#8 => .ok .lawMeasX
  | 0xAA#8 => .ok .lawOutX
  | c => .error (.reservedUop c)

/-- The decoder (R103: total). -/
def decode : PortWord → Except DecodeError Instr
  | .upd96 w => .ok (decodeUpd w)
  | .cmd48 w => decodeCmd w
  | .uop8 w => decodeUop w

/-- A command word from its fields (R95). -/
def cmdWord (op sel : U8) (data : U32) : PortWord := .cmd48 (op ++ sel ++ data)

/-- The encoder. Unused fields are sent as zero (R95). -/
def encode : Instr → PortWord
  | .nop => cmdWord 0x00#8 0 0
  | .arm sel => cmdWord 0x01#8 sel 0
  | .disarm => cmdWord 0x02#8 0 0
  | .disarmErr sel => cmdWord 0x03#8 sel 0
  | .clrErr => cmdWord 0x04#8 0 0
  | .evalLim => cmdWord 0x05#8 0 0
  | .maxTorque => cmdWord 0x06#8 0 0
  | .updGains => cmdWord 0x07#8 0 0
  | .calRun => cmdWord 0x10#8 0 0
  | .calR => cmdWord 0x11#8 0 0
  | .calL => cmdWord 0x12#8 0 0
  | .calPoll => cmdWord 0x13#8 0 0
  | .cfgWr sel data => cmdWord 0x20#8 sel data
  | .regRd sel => cmdWord 0x21#8 sel 0
  | .getR => cmdWord 0x30#8 0 0
  | .getL => cmdWord 0x31#8 0 0
  | .upd a b c => .upd96 (a ++ b ++ c)
  | .timEvent => .uop8 0x80#8
  | .applyPwm => .uop8 0x90#8
  | .sanitize => .uop8 0x91#8
  | .adc2amp => .uop8 0x92#8
  | .infer => .uop8 0x93#8
  | .dcfUpdate => .uop8 0x94#8
  | .dcfValid => .uop8 0x95#8
  | .correct => .uop8 0x96#8
  | .leakChk => .uop8 0x97#8
  | .magChk => .uop8 0x98#8
  | .ibusChk => .uop8 0x99#8
  | .duty2ccr => .uop8 0x9A#8
  | .lawResetR => .uop8 0xA0#8
  | .lawMeasR => .uop8 0xA1#8
  | .lawOutR => .uop8 0xA2#8
  | .lawResetL => .uop8 0xA4#8
  | .lawMeasL => .uop8 0xA5#8
  | .lawOutL => .uop8 0xA6#8
  | .lawResetX => .uop8 0xA8#8
  | .lawMeasX => .uop8 0xA9#8
  | .lawOutX => .uop8 0xAA#8

/-- A word of the opcode table: `nbits` 96, 48 or 8 tells the format, as the port does (R90). -/
def tableWord (nbits w : Nat) : Option PortWord :=
  match nbits with
  | 96 => some (.upd96 (BitVec.ofNat 96 w))
  | 48 => some (.cmd48 (BitVec.ofNat 48 w))
  | 8 => some (.uop8 (BitVec.ofNat 8 w))
  | _ => none

/-- What the decoder reads from a word whose bits are `w`. -/
def decodeTableWord (nbits w : Nat) : Option Instr :=
  match tableWord nbits w with
  | some pw => (decode pw).toOption
  | none => none

end Sys2Proof
end

