-- ==== Sys2Proof/Config.lean ====
section
/-!
DEFINITION. What one instance of the block is built with (the construction parameters of spec/00_scope R10 and the
named literals of R11), the values launch leaves unspecified (spec/10_state R60), and the free values: opaque
constants about which nothing can be proved.
-/

namespace Sys2Proof

/-- `AXIS_DUTY` (spec/43_control_law R216): the default map, or the platform's own, which the spec leaves OPEN. -/
inductive AxisDuty where
  | balanced
  | platform
deriving DecidableEq, Repr, Inhabited

/-- `HW_LIM_V` (spec/44_limits R253), a function of the bus voltage the spec leaves OPEN: a multiple of it (the shape
of the test function of spec/95_test_vectors section 1.1), or the platform's own. -/
inductive HwLimV where
  | scaled (k : F32)
  | platform
deriving DecidableEq, Repr, Inhabited

/-- `RIPPLE_SIGN`, -1 or +1 (spec/43_control_law R230); decided -1. -/
inductive RippleSign where
  | minus
  | plus
deriving DecidableEq, Repr, Inhabited

/-- The construction parameters (R10) and the literals kept as named parameters (R11). A field has a default where
the spec gives one; a field without is OPEN. -/
structure Params where
  /-- `T_UPD_TICKS`: timestamp ticks in one hardware period -/
  tUpdTicks : U32
  /-- `TICK_HZ`: timestamp ticks per second -/
  tickHz : F32
  /-- `PWM_FULL`: compare code that means duty 1.0 -/
  pwmFull : U16
  /-- R11: the fallback duty 0.5 is one half, so `HALF` is `PWM_FULL div 2` -/
  fallbackDiv : U16 := 2
  /-- `ADC_BITS` -/
  adcBits : Nat := 12
  /-- `ADC_LOWER`, inclusive -/
  adcLower : U32 := 372
  /-- `ADC_UPPER`, inclusive -/
  adcUpper : U32 := 3723
  /-- `ADC_INVALID`: the sentinel "no reading this cycle" -/
  adcInvalid : U32 := 0xFFFFFFFF#32
  /-- `ADC_V_PER_LSB`, default 3.3/4096 (0x3A533333) -/
  adcVPerLsb : F32 := .finite false 116 0x533333#23
  /-- `REV_GAIN` -/
  revGain : F32
  /-- `SHUNT_G` -/
  shuntG : F32
  /-- `SENSE_MASK`: bit 0 phase a, bit 1 phase b, bit 2 phase c (spec/30_encoding R98) -/
  senseMask : BitVec 3
  /-- `DC_CALIB_MAX` -/
  dcCalibMax : F32
  /-- `DCF_WARMUP`, the source's 7.5 -/
  dcfWarmup : F32 := .finite false 129 0x700000#23
  /-- `KI_R`, the source's 10 -/
  kiR : F32 := .finite false 130 0x200000#23
  /-- R11: the weight offset 0.5 of the bus-current sum -/
  ibusWeight : F32 := .finite false 126 0#23
  /-- R11: the look-ahead of 2 hardware periods -/
  lookAhead : U32 := 2
  /-- R11: the update interval of 2 hardware periods, the factor of `T_MEAS` -/
  measPeriods : F32 := .finite false 128 0#23
  /-- `HW_LIM_I` -/
  hwLimI : F32
  /-- `HW_LIM_V` -/
  hwLimV : HwLimV
  /-- `N_LIM`: number of registered external current limiters -/
  nLim : Nat
  /-- `R_CAL_POLLS` -/
  rCalPolls : U32 := 3000
  /-- `L_CAL_POLLS` -/
  lCalPolls : U32 := 1250
  /-- `POLL_MS`: nothing in a model without a clock reads it (log 19) -/
  pollMs : Nat := 1
  /-- `L_TEST_V`; `none` is the default, the option `resistance_calib_max_voltage` -/
  lTestV : Option F32 := none
  /-- `RIPPLE_SIGN` -/
  rippleSign : RippleSign := .minus
  /-- `AXIS_DUTY` -/
  axisDuty : AxisDuty := .balanced
  /-- `COUNTING_DOWN_RESET` -/
  countingDownReset : Bool := false
deriving DecidableEq, Repr, Inhabited

/-- The literals of R11 have the source's values. -/
def Params.sourceLiterals (p : Params) : Bool :=
  p.fallbackDiv = 2#16 && p.dcfWarmup = .finite false 129 0x700000#23 && p.kiR = .finite false 130 0x200000#23 &&
  p.ibusWeight = .finite false 126 0#23 && p.lookAhead = 2#32 && p.measPeriods = .finite false 128 0#23

/-- The launch state's unspecified values (spec/10_state R59, R60): the sixteen configuration registers and the two
gains. Any value but one: `dc_calib_tau` is neither +0.0 nor -0.0, since the filter is not valid after reset
(spec/70_reset_and_hazards R331) and with a zero it would be (spec/42_acquisition_filter R192; log 21). -/
structure Launch where
  cfg : Vector U32 16
  pGain : F32
  iGain : F32
  tauNotZero : cfg[9] ≠ 0x00000000#32 ∧ cfg[9] ≠ 0x80000000#32
deriving DecidableEq, Repr

/-- The value the model names for them (DESIGN CHOICE, unsafe: log 5): zeros, but a `dc_calib_tau` of 1.0. -/
def Config.launch : Launch :=
  { cfg := (Vector.replicate 16 0#32).set 9 0x3F800000#32
    pGain := .finite false 0 0#23
    iGain := .finite false 0 0#23
    tauNotZero := by decide }

/-- The parameters R10 marks OPEN, of the instance that `State.reset` is a reset of: nobody's choice (log 3). -/
opaque Config.openParams : Params

/-- That instance: the values R10 decides and the literals of R11, the rest open. -/
def Config.params : Params :=
  { Config.openParams with
    fallbackDiv := 2, adcInvalid := 0xFFFFFFFF#32, dcfWarmup := .finite false 129 0x700000#23,
    kiR := .finite false 130 0x200000#23, ibusWeight := .finite false 126 0#23, lookAhead := 2,
    measPeriods := .finite false 128 0#23, pollMs := 1, rippleSign := .minus, countingDownReset := false }

/-- The platform's `AXIS_DUTY` (R216, OPEN; log 4). -/
opaque Config.axisDuty : F32 → Triple F32

/-- The platform's `HW_LIM_V` (R253, OPEN; log 4). -/
opaque Config.hwLimV : F32 → F32

/-- Sign and payload of the NaN an arithmetic operation returns (R17; log 6). -/
opaque Config.nanChoice : NumOp → F32 → F32 → Bool × Fin 8388607

/-- `DUTY2CCR` outside its domain (spec/30_encoding R100; log 12). -/
opaque Config.freeCompare : F32 → U16

/-- Environment draws (spec/10_state section 13; log 2): the value of an input at the n-th draw. -/
opaque Config.freeVbus : Nat → F32
opaque Config.freeBrakeOk : Nat → Bool
opaque Config.freeSupDisarm : Nat → Bool
opaque Config.freeLimExt : Nat → Nat → F32
opaque Config.freeRotorFlux : Nat → F32
opaque Config.freeReqChanged : Nat → Bool

/-- The word the event port carries with an update event (spec/30_encoding R90, R94; log 9). -/
opaque Config.freeEventWord : Nat → BitVec 96

/-- The external law's answers, draws constrained only by their type (spec/43_control_law R236, R237; log 2). -/
opaque Config.freeExtMeas : Nat → MeasResult
opaque Config.freeExtOut : Nat → OutResult

/-- How many `TIM_EVENT`s fall at a boundary inside a `UPD` (spec/20_memory R80; log 8). -/
opaque Config.freeTimEvents : Nat → Nat

end Sys2Proof
end

