-- ==== Sys2Proof/Machine/Num.lean ====
section
/-!
DEFINITION. IEEE 754 binary32 arithmetic, round to nearest, ties to even, as spec/00_scope R16 and R17 state it, and
the parameters R10 derives. A finite datum is an integer number of units of 2^-149; every operation computes the exact
value and rounds once.
-/

namespace Sys2Proof

/-- The bit pattern of a datum (spec/10_state R50). -/
def F32.toBits : F32 → U32
  | .finite n e f => BitVec.ofNat 32 (n.toNat * 2 ^ 31 + e.val * 2 ^ 23 + f.toNat)
  | .inf n => BitVec.ofNat 32 (n.toNat * 2 ^ 31 + 255 * 2 ^ 23)
  | .nan n p => BitVec.ofNat 32 (n.toNat * 2 ^ 31 + 255 * 2 ^ 23 + (p.val + 1))

/-- The datum of a bit pattern. -/
def F32.ofBits (w : U32) : F32 :=
  let n := decide (2 ^ 31 ≤ w.toNat)
  let e := w.toNat / 2 ^ 23 % 256
  let f := w.toNat % 2 ^ 23
  if e < 255 then .finite n (Fin.ofNat 255 e) (BitVec.ofNat 23 f)
  else if f = 0 then .inf n
  else .nan n (Fin.ofNat 8388607 (f - 1))

/-- `+0.0`. -/
def F32.zero : F32 := .finite false 0 0#23
/-- `1.0`. -/
def F32.one : F32 := .finite false 127 0#23
/-- `-1.0`. -/
def F32.minusOne : F32 := .finite true 127 0#23
/-- `0.5`. -/
def F32.half : F32 := .finite false 126 0#23
/-- `2.0`. -/
def F32.two : F32 := .finite false 128 0#23
/-- `3.0`. -/
def F32.three : F32 := .finite false 128 0x400000#23
/-- `NaN` written as a value: 0x7FC00000 (R17). -/
def F32.qnan : F32 := .nan false 4194303

/-- `isNaN` (R17). -/
def F32.isNaN : F32 → Bool
  | .nan _ _ => true
  | .finite _ _ _ | .inf _ => false

/-- `isFinite` (R17): neither NaN nor an infinity. -/
def F32.isFinite : F32 → Bool
  | .finite _ _ _ => true
  | .nan _ _ | .inf _ => false

/-- `-x` flips the sign bit (spec/42_acquisition_filter R186). -/
def F32.neg : F32 → F32
  | .finite n e f => .finite (!n) e f
  | .inf n => .inf (!n)
  | .nan n p => .nan (!n) p

/-- `abs(x)` clears the sign bit (R17). -/
def F32.abs : F32 → F32
  | .finite _ e f => .finite false e f
  | .inf _ => .inf false
  | .nan _ p => .nan false p

/-- Magnitude of a finite datum in units of 2^-149. -/
def F32.magUnits (e : Fin 255) (f : BitVec 23) : Nat :=
  if e.val = 0 then f.toNat else (2 ^ 23 + f.toNat) * 2 ^ (e.val - 1)

/-- Value of a finite datum in units of 2^-149. -/
def F32.units (n : Bool) (e : Fin 255) (f : BitVec 23) : Int :=
  if n then -(F32.magUnits e f : Int) else (F32.magUnits e f : Int)

/-- The datum of magnitude `v` units, `v` being representable; an infinity from 2^128 on. -/
def F32.pack (n : Bool) (v : Nat) : F32 :=
  if v < 2 ^ 23 then .finite n 0 (BitVec.ofNat 23 v)
  else
    let l := Nat.log2 v - 23
    if l + 1 < 255 then .finite n (Fin.ofNat 255 (l + 1)) (BitVec.ofNat 23 (v / 2 ^ l - 2 ^ 23)) else .inf n

/-- The spacing, as a power of two in units, of the data around magnitude `q` units. -/
def F32.ulpLog (q : Nat) : Nat := if q < 2 ^ 24 then 0 else Nat.log2 q - 23

/-- `a / b` rounded to the nearest integer, ties to even. -/
def roundDiv (a b : Nat) : Nat :=
  if 2 * (a % b) < b then a / b
  else if b < 2 * (a % b) then a / b + 1
  else a / b + a / b % 2

/-- The quotient of `num` units by `den`, rounded to nearest, ties to even (R16). -/
def F32.round (n : Bool) (num den : Nat) : F32 :=
  let l := F32.ulpLog (num / den)
  F32.pack n (roundDiv num (den * 2 ^ l) * 2 ^ l)

/-- The NaN an operation returns: any NaN (R17; log 6). -/
def F32.freeNaN (op : NumOp) (x y : F32) : F32 :=
  .nan (Config.nanChoice op x y).1 (Config.nanChoice op x y).2

/-- `x + y`. A sum that is exactly zero is +0 unless both terms are -0. -/
def F32.add (x y : F32) : F32 :=
  match x, y with
  | .nan _ _, _ => F32.freeNaN .add x y
  | _, .nan _ _ => F32.freeNaN .add x y
  | .inf n, .inf m => if n = m then .inf n else F32.freeNaN .add x y
  | .inf n, .finite _ _ _ => .inf n
  | .finite _ _ _, .inf m => .inf m
  | .finite n e f, .finite m g h =>
    let v := F32.units n e f + F32.units m g h
    if v = 0 then .finite (n && m) 0 0#23 else F32.round (decide (v < 0)) v.natAbs 1

/-- `x - y`, the sum of `x` and `-y`. -/
def F32.sub (x y : F32) : F32 := F32.add x (F32.neg y)

/-- `x × y`. -/
def F32.mul (x y : F32) : F32 :=
  match x, y with
  | .nan _ _, _ => F32.freeNaN .mul x y
  | _, .nan _ _ => F32.freeNaN .mul x y
  | .inf n, .inf m => .inf (n != m)
  | .inf n, .finite m g h => if F32.magUnits g h = 0 then F32.freeNaN .mul x y else .inf (n != m)
  | .finite n e f, .inf m => if F32.magUnits e f = 0 then F32.freeNaN .mul x y else .inf (n != m)
  | .finite n e f, .finite m g h => F32.round (n != m) (F32.magUnits e f * F32.magUnits g h) (2 ^ 149)

/-- `x / y`. -/
def F32.div (x y : F32) : F32 :=
  match x, y with
  | .nan _ _, _ => F32.freeNaN .div x y
  | _, .nan _ _ => F32.freeNaN .div x y
  | .inf _, .inf _ => F32.freeNaN .div x y
  | .inf n, .finite m _ _ => .inf (n != m)
  | .finite n _ _, .inf m => .finite (n != m) 0 0#23
  | .finite n e f, .finite m g h =>
    if F32.magUnits g h = 0 then (if F32.magUnits e f = 0 then F32.freeNaN .div x y else .inf (n != m))
    else F32.round (n != m) (F32.magUnits e f * 2 ^ 149) (F32.magUnits g h)

/-- `x < y` (R17): false when either side is NaN. -/
def F32.lt (x y : F32) : Bool :=
  match x, y with
  | .nan _ _, _ => false
  | _, .nan _ _ => false
  | .inf n, .inf m => n && !m
  | .inf n, .finite _ _ _ => n
  | .finite _ _ _, .inf m => !m
  | .finite n e f, .finite m g h => decide (F32.units n e f < F32.units m g h)

/-- `x ≤ y` (R17): false when either side is NaN. -/
def F32.le (x y : F32) : Bool :=
  match x, y with
  | .nan _ _, _ => false
  | _, .nan _ _ => false
  | .inf n, .inf m => n || !m
  | .inf n, .finite _ _ _ => n
  | .finite _ _ _, .inf m => !m
  | .finite n e f, .finite m g h => decide (F32.units n e f ≤ F32.units m g h)

/-- `min(x, y)` is `if y < x then y else x` (R17). -/
def F32.min (x y : F32) : F32 := if F32.lt y x then y else x

/-- `Num(i)`: exact when representable, else to nearest even (R16). -/
def F32.ofInt (i : Int) : F32 := F32.round (decide (i < 0)) (i.natAbs * 2 ^ 149) 1

/-- `floor_u16(x)`, defined for `0 ≤ x < 2^16`, truncating toward zero (R17). -/
def F32.floorU16 : F32 → U16
  | .finite false e f => BitVec.ofNat 16 (F32.magUnits e f / 2 ^ 149)
  | .finite true _ _ | .inf _ | .nan _ _ => 0#16

/-- What R10 and spec/30_encoding R99 require of the parameters: `T_UPD_TICKS` and `TICK_HZ` positive,
`2 ≤ PWM_FULL < 2^16`, and `ADC_LOWER ≤ ADC_UPPER < 2^ADC_BITS ≤ ADC_INVALID`. -/
def Params.wf (p : Params) : Bool :=
  decide (0 < p.tUpdTicks.toNat) && F32.lt F32.zero p.tickHz && decide (2 ≤ p.pwmFull.toNat) &&
  decide (1 ≤ p.adcBits) && decide (p.adcLower.toNat ≤ p.adcUpper.toNat) &&
  decide (p.adcUpper.toNat < 2 ^ p.adcBits) && decide (2 ^ p.adcBits ≤ p.adcInvalid.toNat)

/-- `HALF = PWM_FULL div 2` (R10; spec/30_encoding R108 (e): toward zero). -/
def Params.half (p : Params) : U16 := p.pwmFull / p.fallbackDiv

/-- `ADC_MID = 2^(ADC_BITS-1)` (R10). -/
def Params.adcMid (p : Params) : Nat := 2 ^ (p.adcBits - 1)

/-- `T_UPD = Num(T_UPD_TICKS) / TICK_HZ` (R10). -/
def Params.tUpd (p : Params) : F32 := F32.div (F32.ofInt p.tUpdTicks.toNat) p.tickHz

/-- `T_MEAS = 2 × T_UPD` (R10). -/
def Params.tMeas (p : Params) : F32 := F32.mul p.measPeriods p.tUpd

/-- `AXIS_DUTY(f)` (spec/43_control_law R216); the default is `(0.5 + f, 0.5 - 0.5 × f, 0.5 - 0.5 × f)`. -/
def Params.axisDutyOf (p : Params) (f : F32) : Triple F32 :=
  match p.axisDuty with
  | .balanced =>
    { a := F32.add F32.half f
      b := F32.sub F32.half (F32.mul F32.half f)
      c := F32.sub F32.half (F32.mul F32.half f) }
  | .platform => Config.axisDuty f

/-- `HW_LIM_V(vbus)` (spec/44_limits R253). -/
def Params.hwLimVOf (p : Params) (vbus : F32) : F32 :=
  match p.hwLimV with
  | .scaled k => F32.mul k vbus
  | .platform => Config.hwLimV vbus

/-- `RIPPLE_SIGN` as a number (spec/43_control_law R230). -/
def Params.rippleNum (p : Params) : F32 :=
  match p.rippleSign with
  | .minus => F32.minusOne
  | .plus => F32.one

end Sys2Proof
end

