-- ==== Sys2Proof/Machine/State.lean ====
section
/-!
DEFINITION. The state of one block instance (spec/10_state R30: the seven groups and the timer interface), the output
event stream (R58), the model's own fields (construction record, agenda, environment, micro-operation latches), the
reasons a step can stop, and reset (R59).
-/

namespace Sys2Proof.Machine

/-- Nothing raises a fault: "The block never traps and never hangs by itself" (spec/00_scope R26). An error kind is
recorded in `S.error` by a disarm, which is a next state (spec/60_exceptions R300). -/
inductive Fault where
deriving DecidableEq, Repr

/-- Why a step has no meaning for what was presented to it. -/
inductive Refusal where
  /-- Raised by `exec` for an operation without a meaning: none at present. Safe: the run stops. -/
  | notModelled (mnemonic : String)
  /-- Raised by `step` for a `UOP8` code that spec/30_encoding R97 reserves; no port carries one. Safe: the run stops
  (log 13). -/
  | reservedMicroOp (code : U8)
deriving DecidableEq, Repr

/-- An event of the output stream (R58). A command is named by its `op`, a result is 32 bits (log 15). -/
inductive Event where
  | brkRecomp
  | extReset
  | lawResetExt
  | lawMeasExt (vbus : F32) (i : Triple F32) (ts : U32)
  | lawOutExt (ts : U32)
  | cmdReject (op : U8)
  | cmdResult (op : U8) (value : U32)
deriving DecidableEq, Repr

/-- The operand latches of a micro-operation stepped alone (log 7); spec/30_encoding R97 gives its code no operand
field, and its rule names the operands. -/
structure Operands where
  /-- `SANITIZE` -/
  adc : Triple U32
  /-- `ADC2AMP` -/
  code : U32
  /-- `INFER`, `DCF_UPDATE`, `CORRECT`, `LAW_MEAS` -/
  amps : Triple F32
  /-- `DUTY2CCR` -/
  duty : F32
  /-- `APPLY_PWM` -/
  codes : Triple U16
  /-- `APPLY_PWM` -/
  tentative : Bool
  /-- `LAW_MEAS` -/
  vbus : F32
  /-- `LAW_MEAS`, and `ts_out` of `LAW_OUT` -/
  ts : U32
deriving DecidableEq, Repr, Inhabited

/-- What the micro-operation stepped last answered (log 7). -/
inductive MicroResult where
  | none
  | codes (adc : Triple U32)
  | amps (i : F32)
  | currents (i : Triple F32)
  | bit (b : Bool)
  | compare (c : U16)
  | meas (r : MeasResult)
  | out (r : OutResult)
deriving DecidableEq, Repr, Inhabited

/-- One arrival at the block (spec/30_encoding R90): an event word, a command word, or a micro-operation with its
operands. -/
inductive Arrival where
  | upd96 (w : BitVec 96)
  | cmd48 (w : BitVec 48)
  | uop8 (code : U8) (opnd : Operands)
deriving DecidableEq, Repr

/-- What the environment will answer to the reads of one input (log 2): first the queued values, then, if one is held
(the `.in` directive of spec/30_encoding R106), that value at every read, else a value nothing constrains. -/
structure Wire (α : Type) where
  queued : List α := []
  held : Option α := none
deriving DecidableEq, Repr

/-- The value the next read sees, `free` standing for the unconstrained draw. -/
def Wire.now {α : Type} (w : Wire α) (free : α) : α :=
  match w.queued with
  | v :: _ => v
  | [] => w.held.getD free

/-- The wire after one read. -/
def Wire.next {α : Type} (w : Wire α) : Wire α := { w with queued := w.queued.tail }

/-- The environment (spec/10_state R54 to R57; spec/43_control_law R236, R237; spec/20_memory R80; spec/30_encoding
R90): a draw per read. -/
structure Env where
  /-- number of draws taken -/
  drawn : Nat
  vbus : Wire F32
  brakeOk : Wire Bool
  supDisarm : Wire Bool
  /-- one wire per limiter -/
  limExt : List (Wire F32)
  rotorFlux : Wire F32
  reqChanged : Wire Bool
  extMeas : Wire MeasResult
  extOut : Wire OutResult
  /-- number of `TIM_EVENT`s at a boundary inside a `UPD` (log 8) -/
  timEvents : Wire Nat
  /-- the word on the event port when a pending event is taken whose word is no arrival (log 9) -/
  eventWord : Wire (BitVec 96)
deriving DecidableEq, Repr

/-- Runtime group (R31 to R35). -/
structure Runtime where
  isArmed : Bool
  law : LawSel
  error : U32
  ts : U32
  countingDown : Bool
deriving DecidableEq, Repr

/-- Filter group (R37). -/
structure Filter where
  off : Triple F32
  since : F32
deriving DecidableEq, Repr

/-- Measurement latches (R38 to R41). -/
structure Latches where
  iMeas : Triple F32
  iLeak : F32
  iBus : F32
  iLimEff : F32
deriving DecidableEq, Repr

/-- Resistance kernel `RMEAS` (R42). -/
structure RKernel where
  target : F32
  vmax : F32
  v : F32
  mod : F32
  i : F32
deriving DecidableEq, Repr

/-- Inductance kernel `LMEAS` (R43). -/
structure LKernel where
  v : F32
  attached : Bool
  dI : F32
  lastI : F32
  t0 : U32
  t1 : U32
deriving DecidableEq, Repr

/-- Derived gains (R44). -/
structure Gains where
  p : F32
  i : F32
deriving DecidableEq, Repr

/-- Calibration sequencer (R46). -/
structure Cal where
  state : CalState
  cnt : U32
  seq : Bool
  ok : Bool
deriving DecidableEq, Repr

/-- Timer interface (R47). -/
structure Tim where
  ccrSh : Triple U16
  ccrAct : Triple U16
  aoe : Bool
  moe : Bool
  uif : Bool
  dir : Bool
deriving DecidableEq, Repr

/-- The whole machine. -/
structure State where
  /-- construction parameters, fixed for the instance (model's own, log 3) -/
  par : Params
  run : Runtime
  dcf : Filter
  lat : Latches
  rk : RKernel
  lk : LKernel
  gain : Gains
  /-- configuration registers 0x00 to 0x0F (R45) -/
  cfg : Vector U32 16
  cal : Cal
  tim : Tim
  /-- output event stream, oldest first (R58) -/
  out : List Event
  /-- the operations to come, in the one global order of spec/20_memory R78 (model's own, log 1) -/
  agenda : List Arrival
  /-- the environment (model's own, log 2) -/
  env : Env
  /-- operand latches of a micro-operation stepped alone (model's own, log 7) -/
  opnd : Operands
  /-- its result latch (model's own, log 7) -/
  res : MicroResult
  /-- the pending event can be delayed no further: a command has run since it became pending, or it fell inside a cycle
  (model's own, log 9; spec/60_exceptions R304) -/
  owed : Bool
deriving DecidableEq, Repr

/-- An environment that fixes nothing. -/
def Env.free : Env :=
  { drawn := 0, vbus := {}, brakeOk := {}, supDisarm := {}, limExt := [], rotorFlux := {}, reqChanged := {},
    extMeas := {}, extOut := {}, timEvents := {}, eventWord := {} }

/-- Operand latches of zeros (log 7). -/
def Operands.zero : Operands :=
  { adc := ⟨0#32, 0#32, 0#32⟩, code := 0#32, amps := ⟨F32.zero, F32.zero, F32.zero⟩, duty := F32.zero,
    codes := ⟨0#16, 0#16, 0#16⟩, tentative := false, vbus := F32.zero, ts := 0#32 }

/-- The state after reset (R59) of an instance with parameters `p` and launch values `l` (R60: "a model takes it as an
argument"). -/
def State.resetWith (p : Params) (l : Launch) : State :=
  { par := p
    run := { isArmed := false, law := .none, error := 0#32, ts := 0#32, countingDown := p.countingDownReset }
    dcf := { off := ⟨F32.zero, F32.zero, F32.zero⟩, since := F32.zero }
    lat := { iMeas := ⟨F32.qnan, F32.qnan, F32.qnan⟩, iLeak := F32.qnan, iBus := F32.zero, iLimEff := F32.zero }
    rk := { target := F32.zero, vmax := F32.zero, v := F32.zero, mod := F32.qnan, i := F32.zero }
    lk := { v := F32.zero, attached := false, dI := F32.zero, lastI := F32.zero, t0 := 0#32, t1 := 0#32 }
    gain := { p := l.pGain, i := l.iGain }
    cfg := l.cfg
    cal := { state := .idle, cnt := 0#32, seq := false, ok := false }
    tim :=
      { ccrSh := ⟨p.half, p.half, p.half⟩, ccrAct := ⟨p.half, p.half, p.half⟩, aoe := false, moe := false,
        uif := false, dir := false }
    out := []
    agenda := []
    env := Env.free
    opnd := Operands.zero
    res := .none
    owed := false }

/-- The machine right after reset (R59): the instance `Config.params` (log 3), launch values `Config.launch` (log 5). -/
def State.reset : State := State.resetWith Config.params Config.launch

end Sys2Proof.Machine
end

