-- ==== Sys2Proof/Machine/Operands.lean ====
section
/-!
DEFINITION. Operand forms: the numbers of the closed enumerations (spec/30_encoding section 2), the classes of ADC
codes (R99), the configuration options by name (spec/10_state R45), and the packed results (R101).
-/

namespace Sys2Proof.Machine

/-- Number of an error kind (R91). -/
def kindNum : ErrorKind → Nat
  | .phaseResistanceOutOfRange => 0
  | .phaseInductanceOutOfRange => 1
  | .unknownVbusVoltage => 2
  | .controllerInitializing => 3
  | .controllerFailed => 4
  | .brakeResistorDisarmed => 5
  | .controlDeadlineMissed => 6
  | .currentSenseSaturation => 7
  | .iLeakOutOfRange => 8
  | .currentLimitViolation => 9
  | .iBusOutOfRange => 10
  | .timerUpdateMissed => 11
  | .drvFault => 12

/-- The kind a `sel` field names (R96): kind numbers 0 to 12. -/
def kindOfSel (sel : U8) : Option ErrorKind :=
  match sel with
  | 0#8 => some .phaseResistanceOutOfRange
  | 1#8 => some .phaseInductanceOutOfRange
  | 2#8 => some .unknownVbusVoltage
  | 3#8 => some .controllerInitializing
  | 4#8 => some .controllerFailed
  | 5#8 => some .brakeResistorDisarmed
  | 6#8 => some .controlDeadlineMissed
  | 7#8 => some .currentSenseSaturation
  | 8#8 => some .iLeakOutOfRange
  | 9#8 => some .currentLimitViolation
  | 10#8 => some .iBusOutOfRange
  | 11#8 => some .timerUpdateMissed
  | 12#8 => some .drvFault
  | _ => none

/-- Number of a law selector (R93). -/
def lawNum : LawSel → BitVec 2
  | .none => 0
  | .rmeas => 1
  | .lmeas => 2
  | .ext => 3

/-- The law an `ARM`'s `sel` names (R96): 1, 2 or 3. -/
def lawOfSel (sel : U8) : Option LawSel :=
  match sel with
  | 1#8 => some .rmeas
  | 2#8 => some .lmeas
  | 3#8 => some .ext
  | _ => none

/-- Number of a sequencer state (R102). -/
def calNum : CalState → BitVec 2
  | .idle => 0
  | .rWait => 1
  | .lWait => 2

/-- The role of a cycle that read direction `d`: `COMMIT` when counting down (spec/40_update_cycle R123). -/
def roleOf (d : Bool) : Role := if d then .commit else .sense

/-- `motor_type` as the rules test it (R92). -/
def motorType (s : State) : MotorType :=
  match s.cfg[0x00] with
  | 0#32 => .highCurrent
  | 1#32 => .gimbal
  | 2#32 => .acim
  | _ => .reserved

/-- The options a rule reads, as numbers (spec/10_state R45). -/
def currentLim (s : State) : F32 := F32.ofBits s.cfg[0x01]
def torqueLim (s : State) : F32 := F32.ofBits s.cfg[0x02]
def torqueConstant (s : State) : F32 := F32.ofBits s.cfg[0x03]
def currentControlBandwidth (s : State) : F32 := F32.ofBits s.cfg[0x04]
def phaseResistance (s : State) : F32 := F32.ofBits s.cfg[0x05]
def phaseInductance (s : State) : F32 := F32.ofBits s.cfg[0x06]
def calibrationCurrent (s : State) : F32 := F32.ofBits s.cfg[0x07]
def resistanceCalibMaxVoltage (s : State) : F32 := F32.ofBits s.cfg[0x08]
def dcCalibTau (s : State) : F32 := F32.ofBits s.cfg[0x09]
def iLeakMax (s : State) : F32 := F32.ofBits s.cfg[0x0A]
def iBusHardMin (s : State) : F32 := F32.ofBits s.cfg[0x0B]
def iBusHardMax (s : State) : F32 := F32.ofBits s.cfg[0x0C]
def currentLimMargin (s : State) : F32 := F32.ofBits s.cfg[0x0D]

/-- `L_TEST_V` (spec/45_calibration R279): the parameter, or by default the option read now. -/
def lTestV (s : State) : F32 := s.par.lTestV.getD (resistanceCalibMaxVoltage s)

/-- The classes of an ADC code (R99). -/
inductive AdcClass where
  | sentinel
  | valid
  | saturated
deriving DecidableEq, Repr

/-- R99; comparisons are unsigned (R108 (f)). -/
def adcClass (p : Params) (c : U32) : AdcClass :=
  if c = p.adcInvalid then .sentinel
  else if p.adcLower ≤ c ∧ c ≤ p.adcUpper then .valid
  else .saturated

/-- The packed result of `LAW_MEAS` (R101): `{tag, k[3:0]}`. -/
def measBits : MeasResult → BitVec 5
  | .success => 0#5
  | .err k => 1#1 ++ BitVec.ofNat 4 (kindNum k)

/-- The packed result of `LAW_OUT` (R101): tag in bit 96, then the three duties or the kind number. -/
def outBits : OutResult → BitVec 97
  | .duty d => 0#1 ++ (d.a.toBits ++ d.b.toBits ++ d.c.toBits : BitVec 96)
  | .err k => 1#1 ++ BitVec.ofNat 96 (kindNum k)

/-- The `op` of a command, as events name it (R96). -/
def opArm : U8 := 0x01#8
def opDisarm : U8 := 0x02#8
def opDisarmErr : U8 := 0x03#8
def opEvalLim : U8 := 0x05#8
def opMaxTorque : U8 := 0x06#8
def opUpdGains : U8 := 0x07#8
def opCalRun : U8 := 0x10#8
def opCalR : U8 := 0x11#8
def opCalL : U8 := 0x12#8
def opCfgWr : U8 := 0x20#8
def opRegRd : U8 := 0x21#8
def opGetR : U8 := 0x30#8
def opGetL : U8 := 0x31#8

/-- One bit as 32. -/
def bitWord (b : Bool) : U32 := if b then 1#32 else 0#32

end Sys2Proof.Machine
end

