-- ==== Sys2Proof/Machine/Flags.lean ====
section
/-!
DEFINITION. Every flag and comparator: the bits of the error mask (spec/30_encoding R91), the `STATUS` word
(spec/10_state R51), the validity tests and the trip conditions.
-/

namespace Sys2Proof.Machine

/-- The bit of a kind in `S.error` (R91). -/
def kindMask (k : ErrorKind) : U32 := 1#32 <<< kindNum k

/-- The bits of `S.error` that stand for a kind; 31 to 13 are never set (R91). -/
def errorBits : U32 := 0x00001FFF#32

/-- One bit of a word. -/
def bit1 (b : Bool) : BitVec 1 := BitVec.ofBool b

/-- `STATUS` (R51), reserved bits 31:13 zero. -/
def statusWord (s : State) : U32 :=
  0#19 ++ bit1 s.lk.attached ++ bit1 s.cal.seq ++ bit1 s.cal.ok ++ calNum s.cal.state ++ bit1 s.tim.dir ++
    bit1 s.tim.uif ++ bit1 s.tim.aoe ++ bit1 s.tim.moe ++ lawNum s.run.law ++ bit1 s.run.countingDown ++
    bit1 s.run.isArmed

/-- A lane has a sensor (R98). -/
def sensedA (p : Params) : Bool := p.senseMask.getLsbD 0
def sensedB (p : Params) : Bool := p.senseMask.getLsbD 1
def sensedC (p : Params) : Bool := p.senseMask.getLsbD 2

/-- A lane saturates: it has a sensor and its code is in neither of the other classes (spec/42_acquisition_filter
R182, R183). -/
def saturates (p : Params) (sensed : Bool) (c : U32) : Bool := sensed && decide (adcClass p c = .saturated)

/-- Two or three phases have no sensor (R187). -/
def fewSensors (p : Params) : Bool := decide (p.senseMask ∈ [0b000#3, 0b001#3, 0b010#3, 0b100#3])

/-- `DCF_VALID` (R192): the warm-up test non-strict, the magnitude tests strict, a NaN anywhere 0. The first two tests
decide only with a time constant that is not positive: never valid with a negative one (R191), nor, with two or three
sensors missing, while the clock stands at the zero that every `COMMIT` cycle resets it to (R187); log 21. -/
def dcfValid (s : State) : Bool :=
  F32.le F32.zero (dcCalibTau s) && (!fewSensors s.par || F32.lt F32.zero s.dcf.since) &&
    F32.le (F32.mul s.par.dcfWarmup (dcCalibTau s)) s.dcf.since && F32.lt s.dcf.off.a.abs s.par.dcCalibMax &&
    F32.lt s.dcf.off.b.abs s.par.dcCalibMax && F32.lt s.dcf.off.c.abs s.par.dcCalibMax

/-- `LEAK_CHK` trips (R196): strict. -/
def leakTrips (s : State) : Bool := F32.lt (iLeakMax s) s.lat.iLeak.abs

/-- `(2.0 / 3.0) × ((a² + b²) + c²)` (spec/44_limits R254). -/
def normSq (i : Triple F32) : F32 :=
  F32.mul (F32.div F32.two F32.three) (F32.add (F32.add (F32.mul i.a i.a) (F32.mul i.b i.b)) (F32.mul i.c i.c))

/-- The trip level `S.I_lim_eff + current_lim_margin` (R254). -/
def tripLevel (s : State) : F32 := F32.add s.lat.iLimEff (currentLimMargin s)

/-- `MAG_CHK` trips (R254): strict, on squares. -/
def magTrips (s : State) : Bool := F32.lt (F32.mul (tripLevel s) (tripLevel s)) (normSq s.lat.iMeas)

/-- `IBUS_CHK` trips (spec/40_update_cycle R134): strict at both bounds. -/
def ibusTrips (s : State) : Bool := F32.lt s.lat.iBus (iBusHardMin s) || F32.lt (iBusHardMax s) s.lat.iBus

/-- A duty is in `[0, 1]`; false for NaN. -/
def inUnit (d : F32) : Bool := F32.le F32.zero d && F32.le d F32.one

/-- `VALID_DUTY` (R130). -/
def validDuty (d : Triple F32) : Bool := inUnit d.a && inUnit d.b && inUnit d.c

end Sys2Proof.Machine
end

