-- ==== Sys2Proof/Machine/Ops.lean ====
section
/-!
DEFINITION. The operations every meaning is built from: the event stream, the reads of the environment, the fault
mechanism (`DISARM`, `DISARM_ERR`), the timer's step, the latch arbiter, and the register space.
-/

namespace Sys2Proof.Machine

/-- `emit E` (spec/00_scope R15): append to the output event stream. -/
def emit (e : Event) (s : State) : State := { s with out := s.out ++ [e] }

/-- `CMD_REJECT(op)` (spec/30_encoding R103): no state changes but the stream. -/
def reject (op : U8) (s : State) : State := emit (.cmdReject op) s

/-- The value the next read of an input sees (spec/10_state R54 to R57). -/
def vbusNow (s : State) : F32 := s.env.vbus.now (Config.freeVbus s.env.drawn)
def brakeNow (s : State) : Bool := s.env.brakeOk.now (Config.freeBrakeOk s.env.drawn)
def supNow (s : State) : Bool := s.env.supDisarm.now (Config.freeSupDisarm s.env.drawn)
def fluxNow (s : State) : F32 := s.env.rotorFlux.now (Config.freeRotorFlux s.env.drawn)
def reqNow (s : State) : Bool := s.env.reqChanged.now (Config.freeReqChanged s.env.drawn)

/-- The wire of limiter `i`; a limiter without one answers anything. -/
def limWire (i : Nat) (s : State) : Wire F32 := s.env.limExt.getD i {}

/-- The answer limiter `i` gives next (spec/44_limits R252). -/
def limNow (i : Nat) (s : State) : F32 := (limWire i s).now (Config.freeLimExt i s.env.drawn)

/-- Number of timer events at the next boundary (spec/20_memory R80). -/
def timNow (s : State) : Nat := s.env.timEvents.now (Config.freeTimEvents s.env.drawn)

/-- The word the event port carries (spec/30_encoding R90, R94). -/
def eventWordNow (s : State) : BitVec 96 := s.env.eventWord.now (Config.freeEventWord s.env.drawn)

/-- The external law's next answer (spec/43_control_law R236, R237). -/
def extMeasNow (s : State) : MeasResult := s.env.extMeas.now (Config.freeExtMeas s.env.drawn)
def extOutNow (s : State) : OutResult := s.env.extOut.now (Config.freeExtOut s.env.drawn)

/-- The state after a read of an input. -/
def vbusRead (s : State) : State :=
  { s with env := { s.env with vbus := s.env.vbus.next, drawn := s.env.drawn + 1 } }
def brakeRead (s : State) : State :=
  { s with env := { s.env with brakeOk := s.env.brakeOk.next, drawn := s.env.drawn + 1 } }
def supRead (s : State) : State :=
  { s with env := { s.env with supDisarm := s.env.supDisarm.next, drawn := s.env.drawn + 1 } }
def fluxRead (s : State) : State :=
  { s with env := { s.env with rotorFlux := s.env.rotorFlux.next, drawn := s.env.drawn + 1 } }
def reqRead (s : State) : State :=
  { s with env := { s.env with reqChanged := s.env.reqChanged.next, drawn := s.env.drawn + 1 } }
def limRead (i : Nat) (s : State) : State :=
  { s with env := { s.env with limExt := s.env.limExt.set i (limWire i s).next, drawn := s.env.drawn + 1 } }
def timRead (s : State) : State :=
  { s with env := { s.env with timEvents := s.env.timEvents.next, drawn := s.env.drawn + 1 } }
def eventWordRead (s : State) : State :=
  { s with env := { s.env with eventWord := s.env.eventWord.next, drawn := s.env.drawn + 1 } }
def extMeasRead (s : State) : State :=
  { s with env := { s.env with extMeas := s.env.extMeas.next, drawn := s.env.drawn + 1 } }
def extOutRead (s : State) : State :=
  { s with env := { s.env with extOut := s.env.extOut.next, drawn := s.env.drawn + 1 } }

/-- `DISARM` (spec/41_arm_commit R157) without the port's result: output off, latch cleared, law detached, and
`BRK_RECOMP` after the change if the block was armed (R158). -/
def disarm (s : State) : State :=
  { s with
    tim := { s.tim with moe := false, aoe := false }
    run := { s.run with law := .none, isArmed := false }
    out := if s.run.isArmed then s.out ++ [.brkRecomp] else s.out }

/-- Fault entry, `DISARM_ERR(k)` or `raise k` (R160; spec/60_exceptions R306): the kind's bit ORed into the sticky
mask, then a disarm. Nothing is saved and control goes nowhere; there is no return from a fault (R307). -/
def raise (k : ErrorKind) (s : State) : State :=
  disarm { s with run := { s.run with error := s.run.error ||| kindMask k } }

/-- `if c then raise k`. -/
def raiseIf (c : Bool) (k : ErrorKind) (s : State) : State := if c then raise k s else s

/-- `TIM_EVENT` (R166), all four lines at one instant. -/
def timEvent (s : State) : State :=
  { s with
    tim :=
      { s.tim with ccrAct := s.tim.ccrSh, moe := s.tim.moe || s.tim.aoe, dir := !s.tim.dir, uif := true } }

/-- `n` timer events. -/
def timEvents : Nat → State → State
  | 0, s => s
  | n + 1, s => timEvents n (timEvent s)

/-- A boundary at which timer events may fall (R163; log 8): as many as the environment draws. -/
def timSlot (s : State) : State := timEvents (timNow s) (timRead s)

/-- p1 to p3 (R162): the three shadow writes. -/
def writeShA (c : U16) (s : State) : State :=
  { s with tim := { s.tim with ccrSh := { s.tim.ccrSh with a := c } } }
def writeShB (c : U16) (s : State) : State :=
  { s with tim := { s.tim with ccrSh := { s.tim.ccrSh with b := c } } }
def writeShC (c : U16) (s : State) : State :=
  { s with tim := { s.tim with ccrSh := { s.tim.ccrSh with c := c } } }

/-- p0: the interlock test, armed or not, tentative or not (R165). -/
def testInterlock (s : State) : State := raiseIf (!brakeNow s) .brakeResistorDisarmed (brakeRead s)

/-- p4: the auto-output-enable latch. -/
def setAoe (tentative : Bool) (s : State) : State :=
  if !tentative && s.run.isArmed then { s with tim := { s.tim with aoe := true } } else s

/-- p5: the late-event test (R164). -/
def testLate (s : State) : State := raiseIf s.tim.uif .controlDeadlineMissed s

/-- `APPLY_PWM(codes, tentative)` (R162), with boundary `k` before micro-step `pk` (R163). -/
def latchPwm (codes : Triple U16) (tentative : Bool) (s : State) : State :=
  testLate (timSlot (setAoe tentative (timSlot (writeShC codes.c (timSlot (writeShB codes.b
    (timSlot (writeShA codes.a (timSlot (testInterlock (timSlot s)))))))))))

/-- `x[n]` (spec/10_state R45, R50): the 32 bits of register `n`; 0x30 to 0xFF hold nothing (spec/20_memory R71). -/
def regRead (n : U8) (s : State) : Option U32 :=
  if h : n.toNat < 16 then some s.cfg[n.toNat]
  else
    match n with
    | 0x10#8 => some s.run.error
    | 0x11#8 => some (statusWord s)
    | 0x12#8 => some s.run.ts
    | 0x13#8 => some s.lat.iMeas.a.toBits
    | 0x14#8 => some s.lat.iMeas.b.toBits
    | 0x15#8 => some s.lat.iMeas.c.toBits
    | 0x16#8 => some s.dcf.off.a.toBits
    | 0x17#8 => some s.dcf.off.b.toBits
    | 0x18#8 => some s.dcf.off.c.toBits
    | 0x19#8 => some s.dcf.since.toBits
    | 0x1A#8 => some s.lat.iLeak.toBits
    | 0x1B#8 => some s.lat.iBus.toBits
    | 0x1C#8 => some s.lat.iLimEff.toBits
    | 0x1D#8 => some s.gain.p.toBits
    | 0x1E#8 => some s.gain.i.toBits
    | 0x1F#8 => some s.cal.cnt
    | 0x20#8 => some s.rk.v.toBits
    | 0x21#8 => some s.rk.mod.toBits
    | 0x22#8 => some s.rk.target.toBits
    | 0x23#8 => some s.rk.vmax.toBits
    | 0x24#8 => some s.lk.v.toBits
    | 0x25#8 => some s.lk.dI.toBits
    | 0x26#8 => some s.lk.lastI.toBits
    | 0x27#8 => some s.lk.t0
    | 0x28#8 => some s.lk.t1
    | 0x29#8 => some (s.tim.ccrSh.a.setWidth 32)
    | 0x2A#8 => some (s.tim.ccrSh.b.setWidth 32)
    | 0x2B#8 => some (s.tim.ccrSh.c.setWidth 32)
    | 0x2C#8 => some (s.tim.ccrAct.a.setWidth 32)
    | 0x2D#8 => some (s.tim.ccrAct.b.setWidth 32)
    | 0x2E#8 => some (s.tim.ccrAct.c.setWidth 32)
    | 0x2F#8 => some s.rk.i.toBits
    | _ => none

/-- `x[n] <- v` for a configuration register; no other register is written by number (R71). -/
def cfgWrite (n : Nat) (v : U32) (s : State) : State :=
  if h : n < 16 then { s with cfg := s.cfg.set n v } else s

/-- The result latch of a micro-operation stepped alone (log 7). -/
def answer (r : MicroResult) (s : State) : State := { s with res := r }

/-- The word an arrival carries (spec/30_encoding R90). -/
def arrivalWord : Arrival → PortWord
  | .upd96 w => .upd96 w
  | .cmd48 w => .cmd48 w
  | .uop8 code _ => .uop8 code

/-- The arrival is the timer's own step `TIM_EVENT`, which nothing delays (spec/20_memory R80). -/
def isTimEvent : Arrival → Bool
  | .uop8 code _ => decide (code = 0x80#8)
  | .upd96 _ | .cmd48 _ => false

/-- The arrival waits while an event is due: a command, or a micro-operation stepped alone (log 9). -/
def waitsForCycle (a : Arrival) : Bool :=
  match a with
  | .upd96 _ => false
  | .cmd48 _ | .uop8 _ _ => !isTimEvent a

/-- A pending event must be taken now (spec/60_exceptions R304: "as soon as no command is executing"): its word is not
what arrives, and either nothing arrives, or it has been delayed by one command (spec/20_memory R79 (d); log 9). -/
def cycleDue (s : State) : Bool :=
  s.tim.uif &&
    match s.agenda with
    | [] => true
    | a :: _ => s.owed && waitsForCycle a

/-- The state once an arrival has been taken off the agenda; a micro-operation's operands are in the latches. A pending
event that is taken, or that has let a command go first, can be delayed no further; an event that sets the flag finds
at most one command executing (log 9). -/
def takeArrival (a : Arrival) (s : State) : State :=
  match a with
  | .upd96 _ | .cmd48 _ => { s with agenda := s.agenda.tail, owed := s.tim.uif }
  | .uop8 _ o => { s with agenda := s.agenda.tail, opnd := o, owed := s.tim.uif && (s.owed || !isTimEvent a) }

/-- The state in which a due cycle starts: the event port is read, the agenda waits. -/
def takeDue (s : State) : State := { eventWordRead s with owed := true }

/-- What the next transition is and the state it starts in (spec/20_memory R78, R79), `none` when there is none. -/
def nextTurn (s : State) : Option (Arrival × State) :=
  if cycleDue s then some (.upd96 (eventWordNow s), takeDue s)
  else
    match s.agenda with
    | [] => none
    | a :: _ => some (a, takeArrival a s)

/-- A `UPD` is enabled when `TIM.uif = 1` (spec/00_scope R22; spec/40_update_cycle R120); nothing else waits for a
flag. -/
def enabled (a : Arrival) (s : State) : Bool :=
  match a with
  | .upd96 _ => s.tim.uif
  | .cmd48 _ | .uop8 _ _ => true

/-- A word as an arrival; a micro-operation finds the operands that stand in the latches. -/
def wordArrival (w : PortWord) (s : State) : Arrival :=
  match w with
  | .upd96 w => .upd96 w
  | .cmd48 w => .cmd48 w
  | .uop8 code => .uop8 code s.opnd

/-- Puts an arrival first on the agenda. -/
def present (a : Arrival) (s : State) : State := { s with agenda := a :: s.agenda }

/-- What lets an arrival run in the very next step: a `UPD96` word is that of an update event, which is pending then; no
event is due before anything else. -/
def makeReady (a : Arrival) (s : State) : State :=
  match a with
  | .upd96 _ => { s with tim := { s.tim with uif := true }, owed := false }
  | .cmd48 _ | .uop8 _ _ => { s with owed := false }

end Sys2Proof.Machine
end

