-- ==== Sys2Proof/Machine/Law.lean ====
section
/-!
DEFINITION. The control-law contract, the two measurement kernels and the external law (spec/43_control_law).
-/

namespace Sys2Proof.Machine

/-- `LAW_RESET.R` (R220): the instance parameters are kept. -/
def resetR (s : State) : State :=
  { s with rk := { s.rk with v := F32.zero, mod := F32.qnan, i := F32.zero } }

/-- The integrator after one sample: `r_v + (KI_R × T_MEAS) × (r_target - I.a)` (R221, m2). -/
def integrate (s : State) (ia : F32) : F32 :=
  F32.add s.rk.v (F32.mul (F32.mul s.par.kiR s.par.tMeas) (F32.sub s.rk.target ia))

/-- m1 and m2 of `LAW_MEAS.R` (R221). -/
def sampleR (ia : F32) (s : State) : State := { s with rk := { s.rk with i := ia, v := integrate s ia } }

/-- m5 of `LAW_MEAS.R` (R221). -/
def modulateR (vbus : F32) (s : State) : State := { s with rk := { s.rk with mod := F32.div s.rk.v vbus } }

/-- The bound test m3 (R221): strict, on the integrator just updated. -/
def overVmax (s : State) : Bool := F32.lt s.rk.vmax s.rk.v.abs

/-- The answer of `LAW_MEAS.R` (R221, R222): the bound is tested before the bus voltage. -/
def measRResult (vbus : F32) (ia : F32) (s : State) : MeasResult :=
  if overVmax (sampleR ia s) then .err .phaseResistanceOutOfRange
  else if vbus.isNaN then .err .unknownVbusVoltage
  else .success

/-- The state after `LAW_MEAS.R` (R221, R222): the over-range value is kept; `r_mod` moves on success only. -/
def measR (vbus : F32) (ia : F32) (s : State) : State :=
  if overVmax (sampleR ia s) then sampleR ia s
  else if vbus.isNaN then sampleR ia s
  else modulateR vbus (sampleR ia s)

/-- `LAW_OUT.R` (R223). -/
def outR (s : State) : OutResult :=
  if s.rk.mod.isNaN then .err .controllerInitializing else .duty (s.par.axisDutyOf s.rk.mod)

/-- `S.r_v / S.r_target` (R225). -/
def resistanceValue (s : State) : F32 := F32.div s.rk.v s.rk.target

/-- `LAW_RESET.L` (R228): the test voltage is kept. -/
def resetL (s : State) : State :=
  { s with
    lk := { s.lk with attached := false, dI := F32.zero, lastI := F32.zero, t0 := 0#32, t1 := 0#32 } }

/-- The sign of the test voltage, `+1.0` when `l_v ≥ 0` (R229). -/
def testSign (v : F32) : F32 := if F32.le F32.zero v then F32.one else F32.minusOne

/-- The ripple one sample adds (R229, n2). -/
def ripple (s : State) (ia : F32) : F32 :=
  F32.mul (F32.mul s.par.rippleNum (testSign s.lk.v)) (F32.sub ia s.lk.lastI)

/-- n2 to n4 of `LAW_MEAS.L` (R229): the first sample opens the window and adds no ripple. -/
def sampleL (ia : F32) (ts : U32) (s : State) : State :=
  { s with
    lk :=
      { s.lk with
        dI := if s.lk.attached then F32.add s.lk.dI (ripple s ia) else s.lk.dI
        t0 := if s.lk.attached then s.lk.t0 else ts
        attached := true
        lastI := ia
        t1 := ts } }

/-- `LAW_MEAS.L` refuses a bus voltage or an axis current that is NaN (R229, n1). -/
def unusableL (vbus ia : F32) : Bool := vbus.isNaN || ia.isNaN

/-- The answer of `LAW_MEAS.L` (R229). -/
def measLResult (vbus ia : F32) : MeasResult :=
  if unusableL vbus ia then .err .unknownVbusVoltage else .success

/-- The state after `LAW_MEAS.L` (R229). -/
def measL (vbus ia : F32) (ts : U32) (s : State) : State :=
  if unusableL vbus ia then s else sampleL ia ts s

/-- o2 of `LAW_OUT.L` (R231): the test voltage alternates. -/
def flipL (s : State) : State := { s with lk := { s.lk with v := s.lk.v.neg } }

/-- The answer of `LAW_OUT.L` (R231): it reads the `vbus` port once, now (log 10). -/
def outLResult (s : State) : OutResult :=
  if (vbusNow s).isNaN then .err .unknownVbusVoltage
  else .duty (s.par.axisDutyOf (F32.div s.lk.v.neg (vbusNow s)))

/-- The state after `LAW_OUT.L` (R231): no flip when the bus voltage is unknown. -/
def outL (s : State) : State := if (vbusNow s).isNaN then vbusRead s else flipL (vbusRead s)

/-- Seconds between the first and the last sample (R233): `Num((l_t1 - l_t0) mod 2^32) / TICK_HZ`. -/
def windowSeconds (s : State) : F32 := F32.div (F32.ofInt (s.lk.t1 - s.lk.t0).toNat) s.par.tickHz

/-- The value `GET_L` computes (R233). -/
def inductanceValue (s : State) : F32 := F32.div s.lk.v.abs (F32.div s.lk.dI (windowSeconds s))

/-- `LAW_RESET.X` (R235). -/
def resetX (s : State) : State := emit .lawResetExt s

/-- `LAW_MEAS.X` (R236): the arguments are emitted, the answer is drawn. -/
def measX (vbus : F32) (i : Triple F32) (ts : U32) (s : State) : State :=
  extMeasRead (emit (.lawMeasExt vbus i ts) s)

/-- `LAW_OUT.X` (R237). -/
def outX (tsOut : U32) (s : State) : State := extOutRead (emit (.lawOutExt tsOut) s)

/-- `LAW_RESET(sel)` (R210). -/
def lawReset (sel : LawSel) (s : State) : State :=
  match sel with
  | .none => s
  | .rmeas => resetR s
  | .lmeas => resetL s
  | .ext => resetX s

/-- The answer of `LAW_MEAS(law, vbus, I, ts)` (R211); the axis current is phase a (R215). No law, no answer. -/
def lawMeasResult (law : LawSel) (vbus : F32) (i : Triple F32) (s : State) : MeasResult :=
  match law with
  | .none => .success
  | .rmeas => measRResult vbus i.a s
  | .lmeas => measLResult vbus i.a
  | .ext => extMeasNow s

/-- The state after `LAW_MEAS` (R211). -/
def lawMeas (law : LawSel) (vbus : F32) (i : Triple F32) (ts : U32) (s : State) : State :=
  match law with
  | .none => s
  | .rmeas => measR vbus i.a s
  | .lmeas => measL vbus i.a ts s
  | .ext => measX vbus i ts s

/-- The answer of `LAW_OUT(law, ts_out)` (R212); no law, no answer. -/
def lawOutResult (law : LawSel) (s : State) : Option OutResult :=
  match law with
  | .none => none
  | .rmeas => some (outR s)
  | .lmeas => some (outLResult s)
  | .ext => some (extOutNow s)

/-- The state after `LAW_OUT` (R212); the kernels ignore `ts_out`. -/
def lawOut (law : LawSel) (tsOut : U32) (s : State) : State :=
  match law with
  | .none => s
  | .rmeas => s
  | .lmeas => outL s
  | .ext => outX tsOut s

/-- `LAW_RESET.R` (R220). -/
def execLawResetR (s : State) : Host.Outcome State Fault Refusal := .next (resetR s)

/-- `LAW_MEAS.R` stepped alone (R221); the caller raises. -/
def execLawMeasR (s : State) : Host.Outcome State Fault Refusal :=
  .next (answer (.meas (measRResult s.opnd.vbus s.opnd.amps.a s)) (measR s.opnd.vbus s.opnd.amps.a s))

/-- `LAW_OUT.R` stepped alone (R223). -/
def execLawOutR (s : State) : Host.Outcome State Fault Refusal := .next (answer (.out (outR s)) s)

/-- `LAW_RESET.L` (R228). -/
def execLawResetL (s : State) : Host.Outcome State Fault Refusal := .next (resetL s)

/-- `LAW_MEAS.L` stepped alone (R229). -/
def execLawMeasL (s : State) : Host.Outcome State Fault Refusal :=
  .next (answer (.meas (measLResult s.opnd.vbus s.opnd.amps.a)) (measL s.opnd.vbus s.opnd.amps.a s.opnd.ts s))

/-- `LAW_OUT.L` stepped alone (R231). -/
def execLawOutL (s : State) : Host.Outcome State Fault Refusal := .next (answer (.out (outLResult s)) (outL s))

/-- `LAW_RESET.X` (R235). -/
def execLawResetX (s : State) : Host.Outcome State Fault Refusal := .next (resetX s)

/-- `LAW_MEAS.X` stepped alone (R236). -/
def execLawMeasX (s : State) : Host.Outcome State Fault Refusal :=
  .next (answer (.meas (extMeasNow s)) (measX s.opnd.vbus s.opnd.amps s.opnd.ts s))

/-- `LAW_OUT.X` stepped alone (R237). -/
def execLawOutX (s : State) : Host.Outcome State Fault Refusal :=
  .next (answer (.out (extOutNow s)) (outX s.opnd.ts s))

/-- `GET_R` (R225). -/
def execGetR (s : State) : Host.Outcome State Fault Refusal :=
  .next (emit (.cmdResult opGetR (resistanceValue s).toBits) s)

/-- `GET_L` (R233). -/
def execGetL (s : State) : Host.Outcome State Fault Refusal :=
  .next (emit (.cmdResult opGetL (inductanceValue s).toBits) s)

end Sys2Proof.Machine
end

