-- ==== Sys2Proof/Machine/Arm.lean ====
section
/-!
DEFINITION. Arm, disarm, the error mask and the PWM commit protocol as operations (spec/41_arm_commit).
-/

namespace Sys2Proof.Machine

/-- The successful branch of `ARM` (R150). -/
def attach (sel : LawSel) (s : State) : State :=
  let t := emit .extReset (lawReset sel { s with run := { s.run with law := sel } })
  { t with run := { t.run with isArmed := true } }

/-- `ARM(sel)` (R150, R151): refused silently when the interlock, read now, is false. -/
def armLaw (sel : LawSel) (s : State) : State :=
  if brakeNow s then attach sel (brakeRead s) else brakeRead s

/-- The `ARM` command (R150); a selector outside 1 to 3 is rejected (spec/30_encoding R103). -/
def armCmd (sel : U8) (s : State) : State :=
  match lawOfSel sel with
  | some law => armLaw law s
  | none => reject opArm s

/-- The `DISARM_ERR` command (R160); a kind number above 12 is rejected (spec/30_encoding R103). -/
def disarmErrCmd (sel : U8) (s : State) : State :=
  match kindOfSel sel with
  | some k => raise k s
  | none => reject opDisarmErr s

/-- `CLR_ERR` (R168): every bit at once, nothing else. -/
def clearErr (s : State) : State := { s with run := { s.run with error := 0#32 } }

/-- `DUTY2CCR(d)` (spec/30_encoding R100): `floor_u16(d × Num(PWM_FULL))`; outside `[0, 1]` a free code (log 12). -/
def dutyToCcr (p : Params) (d : F32) : U16 :=
  if inUnit d then F32.floorU16 (F32.mul d (F32.ofInt p.pwmFull.toNat)) else Config.freeCompare d

/-- The three compare codes of a duty vector. -/
def dutyCodes (p : Params) (d : Triple F32) : Triple U16 :=
  { a := dutyToCcr p d.a, b := dutyToCcr p d.b, c := dutyToCcr p d.c }

/-- `ARM` (R150). -/
def execArm (sel : U8) (s : State) : Host.Outcome State Fault Refusal := .next (armCmd sel s)

/-- `DISARM` from the command port (R157): what it found is emitted. -/
def execDisarm (s : State) : Host.Outcome State Fault Refusal :=
  .next (emit (.cmdResult opDisarm (bitWord s.run.isArmed)) (disarm s))

/-- `DISARM_ERR` (R160). -/
def execDisarmErr (sel : U8) (s : State) : Host.Outcome State Fault Refusal := .next (disarmErrCmd sel s)

/-- `CLR_ERR` (R168). -/
def execClrErr (s : State) : Host.Outcome State Fault Refusal := .next (clearErr s)

/-- `TIM_EVENT` (R166). -/
def execTimEvent (s : State) : Host.Outcome State Fault Refusal := .next (timEvent s)

/-- `APPLY_PWM` stepped alone (R162). -/
def execApplyPwm (s : State) : Host.Outcome State Fault Refusal := .next (latchPwm s.opnd.codes s.opnd.tentative s)

/-- `DUTY2CCR` stepped alone (spec/30_encoding R100). -/
def execDuty2ccr (s : State) : Host.Outcome State Fault Refusal :=
  .next (answer (.compare (dutyToCcr s.par s.opnd.duty)) s)

end Sys2Proof.Machine
end

