-- ==== Sys2Proof/Machine/Calib.lean ====
section
/-!
DEFINITION. The calibration sequencer, the gain update and the register access commands (spec/45_calibration), and
`NOP` (spec/30_encoding R104).
-/

namespace Sys2Proof.Machine

/-- `GAINS` (R285). -/
def gains (s : State) : State :=
  let p := F32.mul (currentControlBandwidth s) (phaseInductance s)
  { s with gain := { p := p, i := F32.mul (F32.div (phaseResistance s) (phaseInductance s)) p } }

/-- Enters a wait loop: `S.cal_cnt <- 0 ; S.cal_state <- w` (R274, R279). -/
def enterWait (w : CalState) (s : State) : State := { s with cal := { s.cal with cnt := 0#32, state := w } }

/-- Writes `S.cal_seq`. -/
def setSeq (b : Bool) (s : State) : State := { s with cal := { s.cal with seq := b } }

/-- Writes `S.cal_ok`. -/
def setOk (b : Bool) (s : State) : State := { s with cal := { s.cal with ok := b } }

/-- Writes `S.cal_state`. -/
def setCal (w : CalState) (s : State) : State := { s with cal := { s.cal with state := w } }

/-- A fresh resistance kernel (R274). -/
def createR (s : State) : State :=
  { s with
    rk :=
      { target := calibrationCurrent s, vmax := resistanceCalibMaxVoltage s, v := F32.zero, mod := F32.qnan,
        i := F32.zero } }

/-- `START_R` (R274). -/
def startR (s : State) : State := enterWait .rWait (armLaw .rmeas (createR s))

/-- A fresh inductance kernel (R279). -/
def createL (s : State) : State :=
  { s with
    lk := { v := lTestV s, attached := false, dI := F32.zero, lastI := F32.zero, t0 := 0#32, t1 := 0#32 } }

/-- `START_L` (R279). -/
def startL (s : State) : State := enterWait .lWait (armLaw .lmeas (createL s))

/-- The result word `{reason[1:0], ok}` (R282). -/
def resultWord (reason : BitVec 2) (ok : Bool) : U32 := (reason ++ bit1 ok).setWidth 32

/-- The end of a measurement: the value stored whether or not finite, a non-finite one raised, the success flag
(R276, R281). -/
def concludeMeas (reg : Nat) (k : ErrorKind) (op : U8) (reason : BitVec 2) (v : F32) (ok : Bool) (s : State) : State :=
  emit (.cmdResult op (resultWord reason ok)) (setOk ok (raiseIf (!v.isFinite) k (cfgWrite reg v.toBits s)))

/-- `FINISH_R(reason)` (R276). -/
def finishR (reason : BitVec 2) (s : State) : State :=
  let r := resistanceValue s
  let ok := s.run.isArmed && r.isFinite
  let t := concludeMeas 0x05 .phaseResistanceOutOfRange opCalR reason r ok (disarm s)
  if s.cal.seq && ok then startL t
  else if s.cal.seq then emit (.cmdResult opCalRun 0#32) (setSeq false (setCal .idle t))
  else setCal .idle t

/-- `FINISH_L(reason)` (R281). -/
def finishL (reason : BitVec 2) (s : State) : State :=
  let l := inductanceValue s
  let ok := s.run.isArmed && l.isFinite
  let t := setCal .idle (concludeMeas 0x06 .phaseInductanceOutOfRange opCalL reason l ok (disarm s))
  if s.cal.seq then
    emit (.cmdResult opCalRun (bitWord ok)) (if ok then gains (setSeq false t) else setSeq false t)
  else t

/-- Ends the loop that is running. -/
def finish (reason : BitVec 2) (s : State) : State :=
  match s.cal.state with
  | .idle => s
  | .rWait => finishR reason s
  | .lWait => finishL reason s

/-- The ceiling of the loop that is running (R283). -/
def pollCeiling (s : State) : U32 :=
  match s.cal.state with
  | .rWait => s.par.rCalPolls
  | .idle | .lWait => s.par.lCalPolls

/-- The tests of one poll, in order: ceiling, request changed, disarmed (R283); `req_changed` is read only after the
ceiling test fails. -/
def pollLoop (s : State) : State :=
  if pollCeiling s ≤ s.cal.cnt then finish 0#2 s
  else if reqNow s then finish 1#2 (reqRead s)
  else if !s.run.isArmed then finish 2#2 (reqRead s)
  else { reqRead s with cal := { s.cal with cnt := s.cal.cnt + 1#32 } }

/-- `CAL_POLL` (R283). -/
def calPoll (s : State) : State := if s.cal.state = .idle then s else pollLoop s

/-- Runs `f` when the sequencer is idle, else rejects the command (R271, R273, R278, R285). -/
def whenIdle (op : U8) (f : State → State) (s : State) : State := if s.cal.state = .idle then f s else reject op s

/-- The idle branch of `CAL_RUN` (R271, R272). -/
def calRunIdle (s : State) : State :=
  match motorType s with
  | .highCurrent | .acim => startR (setSeq true s)
  | .gimbal => emit (.cmdResult opCalRun 1#32) (setOk true (gains s))
  | .reserved => emit (.cmdResult opCalRun 0#32) (setOk false s)

/-- `CFG_WR` is refused for a register above 0x0F, while a calibration runs, or while armed (R290). -/
def cfgRefused (sel : U8) (s : State) : Bool :=
  decide (0x0F < sel.toNat) || decide (s.cal.state ≠ .idle) || s.run.isArmed

/-- `CFG_WR` (R290). -/
def cfgWr (sel : U8) (data : U32) (s : State) : State :=
  if cfgRefused sel s then reject opCfgWr s else cfgWrite sel.toNat data s

/-- `REG_RD` (R291). -/
def regRd (sel : U8) (s : State) : State :=
  match regRead sel s with
  | some v => emit (.cmdResult opRegRd v) s
  | none => reject opRegRd s

/-- `NOP` (spec/30_encoding R104). -/
def execNop (s : State) : Host.Outcome State Fault Refusal := .next s

/-- `UPD_GAINS` (R285). -/
def execUpdGains (s : State) : Host.Outcome State Fault Refusal := .next (whenIdle opUpdGains gains s)

/-- `CAL_RUN` (R271). -/
def execCalRun (s : State) : Host.Outcome State Fault Refusal := .next (whenIdle opCalRun calRunIdle s)

/-- `CAL_R` (R273). -/
def execCalR (s : State) : Host.Outcome State Fault Refusal :=
  .next (whenIdle opCalR (fun t => startR (setSeq false t)) s)

/-- `CAL_L` (R278). -/
def execCalL (s : State) : Host.Outcome State Fault Refusal :=
  .next (whenIdle opCalL (fun t => startL (setSeq false t)) s)

/-- `CAL_POLL` (R283). -/
def execCalPoll (s : State) : Host.Outcome State Fault Refusal := .next (calPoll s)

/-- `CFG_WR` (R290). -/
def execCfgWr (sel : U8) (data : U32) (s : State) : Host.Outcome State Fault Refusal := .next (cfgWr sel data s)

/-- `REG_RD` (R291). -/
def execRegRd (sel : U8) (s : State) : Host.Outcome State Fault Refusal := .next (regRd sel s)

end Sys2Proof.Machine
end

