-- ==== Sys2Proof/Machine/Acquire.lean ====
section
/-!
DEFINITION. Current acquisition, the saturation detector, sensor inference and the offset filter
(spec/42_acquisition_filter).
-/

namespace Sys2Proof.Machine

/-- One lane of `SANITIZE` (R182, R183): an unsensed or saturated lane becomes the sentinel. -/
def sanLane (p : Params) (sensed : Bool) (c : U32) : U32 :=
  if !sensed || saturates p sensed c then p.adcInvalid else c

/-- The codes `SANITIZE` answers (R182). -/
def sanCodes (p : Params) (adc : Triple U32) : Triple U32 :=
  { a := sanLane p (sensedA p) adc.a, b := sanLane p (sensedB p) adc.b, c := sanLane p (sensedC p) adc.c }

/-- What `SANITIZE` raises (R182): once for each saturated lane, in the order a, b, c. -/
def sanFault (adc : Triple U32) (s : State) : State :=
  raiseIf (saturates s.par (sensedC s.par) adc.c) .currentSenseSaturation
    (raiseIf (saturates s.par (sensedB s.par) adc.b) .currentSenseSaturation
      (raiseIf (saturates s.par (sensedA s.par) adc.a) .currentSenseSaturation s))

/-- `ADC2AMP` (R184). -/
def adcToAmp (p : Params) (c : U32) : F32 :=
  if c = p.adcInvalid then F32.qnan
  else
    F32.mul (F32.mul (F32.mul (F32.ofInt ((c.toNat : Int) - (p.adcMid : Int))) p.adcVPerLsb) p.revGain) p.shuntG

/-- `INFER` (R186, R187): a phase is rebuilt when exactly one sensor is missing. -/
def inferPhases (p : Params) (i : Triple F32) : Triple F32 :=
  match p.senseMask with
  | 0b110#3 => { i with a := (F32.add i.b i.c).neg }
  | 0b101#3 => { i with b := (F32.add i.a i.c).neg }
  | 0b011#3 => { i with c := (F32.add i.a i.b).neg }
  | _ => i

/-- Lines 8 and 9 of `UPD`: the currents of the sanitised codes (spec/40_update_cycle R121, R127). -/
def phaseCurrents (p : Params) (adc : Triple U32) : Triple F32 :=
  inferPhases p
    { a := adcToAmp p (sanCodes p adc).a, b := adcToAmp p (sanCodes p adc).b, c := adcToAmp p (sanCodes p adc).c }

/-- Some lane is NaN. -/
def anyNaN (i : Triple F32) : Bool := i.a.isNaN || i.b.isNaN || i.c.isNaN

/-- The filter coefficient `min(T_MEAS / tau, 1.0)` (R190). -/
def filterGain (s : State) : F32 := F32.min (F32.div s.par.tMeas (dcCalibTau s)) F32.one

/-- One lane of the moving average: `off + (I - off) × k` (R190). -/
def filterLane (k off i : F32) : F32 := F32.add off (F32.mul (F32.sub i off) k)

/-- `DCF_UPDATE` (R190, R191): reset by any invalid lane, armed or not. -/
def filterUpdate (i : Triple F32) (s : State) : State :=
  if anyNaN i then { s with dcf := { off := ⟨F32.zero, F32.zero, F32.zero⟩, since := F32.zero } }
  else
    { s with
      dcf :=
        { off :=
            { a := filterLane (filterGain s) s.dcf.off.a i.a
              b := filterLane (filterGain s) s.dcf.off.b i.b
              c := filterLane (filterGain s) s.dcf.off.c i.c }
          since := F32.add s.dcf.since s.par.tMeas } }

/-- `CORRECT` (R194): three NaNs while the filter is not valid (spec/90_conflicts C1). -/
def corrected (s : State) (i : Triple F32) : Triple F32 :=
  if dcfValid s then
    { a := F32.sub i.a s.dcf.off.a, b := F32.sub i.b s.dcf.off.b, c := F32.sub i.c s.dcf.off.c }
  else { a := F32.qnan, b := F32.qnan, c := F32.qnan }

/-- The leakage `(a + b) + c` (R195). -/
def leakSum (i : Triple F32) : F32 := F32.add (F32.add i.a i.b) i.c

/-- `LEAK_CHK` (R196). -/
def leakCheck (s : State) : State := raiseIf (leakTrips s) .iLeakOutOfRange s

/-- `SANITIZE` stepped alone: operand and answer in the latches. -/
def execSanitize (s : State) : Host.Outcome State Fault Refusal :=
  .next (answer (.codes (sanCodes s.par s.opnd.adc)) (sanFault s.opnd.adc s))

/-- `ADC2AMP` stepped alone. -/
def execAdc2amp (s : State) : Host.Outcome State Fault Refusal :=
  .next (answer (.amps (adcToAmp s.par s.opnd.code)) s)

/-- `INFER` stepped alone. -/
def execInfer (s : State) : Host.Outcome State Fault Refusal :=
  .next (answer (.currents (inferPhases s.par s.opnd.amps)) s)

/-- `DCF_UPDATE` stepped alone. -/
def execDcfUpdate (s : State) : Host.Outcome State Fault Refusal :=
  .next (filterUpdate s.opnd.amps s)

/-- `DCF_VALID` stepped alone. -/
def execDcfValid (s : State) : Host.Outcome State Fault Refusal :=
  .next (answer (.bit (dcfValid s)) s)

/-- `CORRECT` stepped alone; the caller, not this operation, writes `S.I_meas` (R194). -/
def execCorrect (s : State) : Host.Outcome State Fault Refusal :=
  .next (answer (.currents (corrected s s.opnd.amps)) s)

/-- `LEAK_CHK` (R196). -/
def execLeakChk (s : State) : Host.Outcome State Fault Refusal :=
  .next (leakCheck s)

end Sys2Proof.Machine
end

