-- ==== Sys2Proof/Machine/Limits.lean ====
section
/-!
DEFINITION. Limit evaluation, the over-current comparator and the torque query (spec/44_limits).
-/

namespace Sys2Proof.Machine

/-- The configured limit against the hardware's (R251): voltage-derived for `Gimbal`, with `vbus` read now, else
current-rating-derived. -/
def baseLim (s : State) : F32 :=
  if motorType s = .gimbal then F32.min (currentLim s) (s.par.hwLimVOf (vbusNow s))
  else F32.min (currentLim s) s.par.hwLimI

/-- The state after that evaluation: `vbus` is read for `Gimbal` only. -/
def baseLimRead (s : State) : State := if motorType s = .gimbal then vbusRead s else s

/-- The limiters' answers in order, `n` of them from number `i` on (R251, R252). -/
def foldLims : Nat → Nat → F32 → State → F32
  | 0, _, lim, _ => lim
  | n + 1, i, lim, s => foldLims n (i + 1) (F32.min lim (limNow i s)) (limRead i s)

/-- The state after those reads. -/
def readLims : Nat → Nat → State → State
  | 0, _, s => s
  | n + 1, i, s => readLims n (i + 1) (limRead i s)

/-- The effective current limit (R251). -/
def effLim (s : State) : F32 := foldLims s.par.nLim 0 (baseLim s) (baseLimRead s)

/-- Writes the cached limit. -/
def cacheLim (lim : F32) (s : State) : State := { s with lat := { s.lat with iLimEff := lim } }

/-- `EVAL_LIM` (R251): the limit is evaluated and cached. -/
def evalLim (s : State) : State := cacheLim (effLim s) (readLims s.par.nLim 0 (baseLimRead s))

/-- `MAG_CHK` (R254). -/
def magCheck (s : State) : State := raiseIf (magTrips s) .currentLimitViolation s

/-- The torque before the ceiling (R256): the cached limit times the torque constant; for `Acim` times the rotor flux
read now, or zero if that is not positive. -/
def rawTorque (s : State) : F32 :=
  if motorType s = .acim then
    (if F32.le (fluxNow s) F32.zero then F32.zero
     else F32.mul (F32.mul s.lat.iLimEff (torqueConstant s)) (fluxNow s))
  else F32.mul s.lat.iLimEff (torqueConstant s)

/-- The state after that evaluation: `rotor_flux` is read for `Acim` only. -/
def torqueRead (s : State) : State := if motorType s = .acim then fluxRead s else s

/-- The torque `MAX_TORQUE` answers (R256): a ceiling only. -/
def maxTorque (s : State) : F32 := F32.min (rawTorque s) (torqueLim s)

/-- `EVAL_LIM` from the command port (R251): the result is emitted. -/
def execEvalLim (s : State) : Host.Outcome State Fault Refusal :=
  .next (emit (.cmdResult opEvalLim (effLim s).toBits) (evalLim s))

/-- `MAX_TORQUE` (R256). -/
def execMaxTorque (s : State) : Host.Outcome State Fault Refusal :=
  .next (emit (.cmdResult opMaxTorque (maxTorque s).toBits) (torqueRead s))

/-- `MAG_CHK` (R254). -/
def execMagChk (s : State) : Host.Outcome State Fault Refusal :=
  .next (magCheck s)

end Sys2Proof.Machine
end

