-- ==== Sys2Proof/Machine/Cycle.lean ====
section
/-!
DEFINITION. The update cycle `UPD` (spec/40_update_cycle).
-/

namespace Sys2Proof.Machine

/-- Lines 1 and 2 of `UPD` (R125): the event is consumed, the timestamp advances by one period, modulo 2^32. -/
def beginCycle (s : State) : State :=
  { s with tim := { s.tim with uif := false }, run := { s.run with ts := s.run.ts + s.par.tUpdTicks } }

/-- Line 5 of `UPD`. -/
def setDirection (d : Bool) (s : State) : State := { s with run := { s.run with countingDown := d } }

/-- s1 and s2 of `SENSE_BODY` (R128). -/
def latchCurrents (i : Triple F32) (s : State) : State :=
  { s with lat := { s.lat with iMeas := corrected s i, iLeak := leakSum (corrected s i) } }

/-- s4 of `SENSE_BODY` (R128): the supervisor's fast check, a plain disarm (spec/60_exceptions R318). -/
def superviseCheck (s : State) : State := if supNow s then disarm (supRead s) else supRead s

/-- Raises the kind a measurement answered. -/
def raiseMeas (r : MeasResult) (s : State) : State :=
  match r with
  | .success => s
  | .err k => raise k s

/-- s7 of `SENSE_BODY` (R128): the attached law is fed the bus voltage read now, the latched currents and the
timestamp; a failure is raised. -/
def feedLaw (s : State) : State :=
  if s.run.law = .none then s
  else
    raiseMeas (lawMeasResult s.run.law (vbusNow s) s.lat.iMeas (vbusRead s))
      (lawMeas s.run.law (vbusNow s) s.lat.iMeas s.run.ts (vbusRead s))

/-- `SENSE_BODY(I)` (R128). -/
def senseBody (i : Triple F32) (s : State) : State :=
  feedLaw (magCheck (evalLim (superviseCheck (leakCheck (latchCurrents i s)))))

/-- The look-ahead timestamp of c2 (R129; spec/30_encoding R108): two periods ahead, modulo 2^32. -/
def lookAheadTs (s : State) : U32 := s.run.ts + s.par.lookAhead * s.par.tUpdTicks

/-- `IBUS_SUM(dd)` (R131), of the latched currents of the preceding `SENSE` cycle. -/
def ibusSum (s : State) (d : Triple F32) : F32 :=
  F32.add
    (F32.add (F32.mul (F32.sub s.par.ibusWeight d.a) s.lat.iMeas.a)
      (F32.mul (F32.sub s.par.ibusWeight d.b) s.lat.iMeas.b))
    (F32.mul (F32.sub s.par.ibusWeight d.c) s.lat.iMeas.c)

/-- c3 and c4 of `COMMIT_BODY`, the bus current (R129 to R132): a sum for a valid duty vector, else +0.0. -/
def resultBus (r : Option OutResult) (s : State) : F32 :=
  match r with
  | some (.duty d) => if validDuty d then ibusSum s d else F32.zero
  | some (.err _) => F32.zero
  | none => F32.zero

/-- The transient of R132: `ControllerInitializing` while the output is not enabled. -/
def tolerated (k : ErrorKind) (s : State) : Bool := decide (k = .controllerInitializing) && !s.tim.moe

/-- c4 of `COMMIT_BODY`, the effect (R130, R132). -/
def commitResult (r : Option OutResult) (s : State) : State :=
  match r with
  | none => s
  | some (.duty d) => if validDuty d then latchPwm (dutyCodes s.par d) false s else raise .controllerFailed s
  | some (.err k) => if tolerated k s then s else raise k s

/-- c5 and c6 of `COMMIT_BODY` (R133): zero if not armed after the commit. -/
def latchBus (ibus : F32) (s : State) : State :=
  { s with lat := { s.lat with iBus := if s.run.isArmed then ibus else F32.zero } }

/-- `IBUS_CHK` (R134). -/
def ibusCheck (s : State) : State := raiseIf (ibusTrips s) .iBusOutOfRange s

/-- c2 to c7 of `COMMIT_BODY` (R129), `r` and `t` being the answer of the law and the state after it. -/
def commitTail (r : Option OutResult) (t : State) : State :=
  ibusCheck (latchBus (resultBus r t) (commitResult r t))

/-- `COMMIT_BODY(I)` (R129). -/
def commitBody (i : Triple F32) (s : State) : State :=
  let t := filterUpdate i s
  commitTail (lawOutResult t.run.law t) (lawOut t.run.law (lookAheadTs t) t)

/-- Line 7 of `UPD` (R126): the tentative 50 % fallback. -/
def fallback (s : State) : State := latchPwm { a := s.par.half, b := s.par.half, c := s.par.half } true s

/-- Lines 7 to 11 of `UPD` (R121). -/
def runRole (role : Role) (adc : Triple U32) (s : State) : State :=
  match role with
  | .sense => senseBody (phaseCurrents s.par adc) (sanFault adc s)
  | .commit => commitBody (phaseCurrents s.par adc) (sanFault adc (fallback s))

/-- Lines 3 to 11 of `UPD` (R121, R124). -/
def directCycle (adc : Triple U32) (s : State) : State :=
  if s.tim.dir = s.run.countingDown then raise .timerUpdateMissed s
  else runRole (roleOf s.tim.dir) adc (setDirection s.tim.dir s)

/-- `UPD(adc)` (R121). Timer events may fall before line 3 (spec/20_memory R80; log 8). -/
def updCycle (adc : Triple U32) (s : State) : State := directCycle adc (timSlot (beginCycle s))

/-- `UPD` (R121). -/
def execUpd (adcA adcB adcC : U32) (s : State) : Host.Outcome State Fault Refusal :=
  .next (updCycle { a := adcA, b := adcB, c := adcC } s)

/-- `IBUS_CHK` (R134). -/
def execIbusChk (s : State) : Host.Outcome State Fault Refusal := .next (ibusCheck s)

end Sys2Proof.Machine
end

