-- ==== Sys2Proof/Machine/Dispatch.lean ====
section
/-!
DEFINITION. One arm per operation of the table.
-/

namespace Sys2Proof.Machine

def exec (i : Instr) (s : State) : Host.Outcome State Fault Refusal :=
  match i with
  | .nop => Sys2Proof.Machine.execNop s
  | .arm sel => Sys2Proof.Machine.execArm sel s
  | .disarm => Sys2Proof.Machine.execDisarm s
  | .disarmErr sel => Sys2Proof.Machine.execDisarmErr sel s
  | .clrErr => Sys2Proof.Machine.execClrErr s
  | .evalLim => Sys2Proof.Machine.execEvalLim s
  | .maxTorque => Sys2Proof.Machine.execMaxTorque s
  | .updGains => Sys2Proof.Machine.execUpdGains s
  | .calRun => Sys2Proof.Machine.execCalRun s
  | .calR => Sys2Proof.Machine.execCalR s
  | .calL => Sys2Proof.Machine.execCalL s
  | .calPoll => Sys2Proof.Machine.execCalPoll s
  | .cfgWr sel data => Sys2Proof.Machine.execCfgWr sel data s
  | .regRd sel => Sys2Proof.Machine.execRegRd sel s
  | .getR => Sys2Proof.Machine.execGetR s
  | .getL => Sys2Proof.Machine.execGetL s
  | .upd adcA adcB adcC => Sys2Proof.Machine.execUpd adcA adcB adcC s
  | .timEvent => Sys2Proof.Machine.execTimEvent s
  | .applyPwm => Sys2Proof.Machine.execApplyPwm s
  | .sanitize => Sys2Proof.Machine.execSanitize s
  | .adc2amp => Sys2Proof.Machine.execAdc2amp s
  | .infer => Sys2Proof.Machine.execInfer s
  | .dcfUpdate => Sys2Proof.Machine.execDcfUpdate s
  | .dcfValid => Sys2Proof.Machine.execDcfValid s
  | .correct => Sys2Proof.Machine.execCorrect s
  | .leakChk => Sys2Proof.Machine.execLeakChk s
  | .magChk => Sys2Proof.Machine.execMagChk s
  | .ibusChk => Sys2Proof.Machine.execIbusChk s
  | .duty2ccr => Sys2Proof.Machine.execDuty2ccr s
  | .lawResetR => Sys2Proof.Machine.execLawResetR s
  | .lawMeasR => Sys2Proof.Machine.execLawMeasR s
  | .lawOutR => Sys2Proof.Machine.execLawOutR s
  | .lawResetL => Sys2Proof.Machine.execLawResetL s
  | .lawMeasL => Sys2Proof.Machine.execLawMeasL s
  | .lawOutL => Sys2Proof.Machine.execLawOutL s
  | .lawResetX => Sys2Proof.Machine.execLawResetX s
  | .lawMeasX => Sys2Proof.Machine.execLawMeasX s
  | .lawOutX => Sys2Proof.Machine.execLawOutX s

end Sys2Proof.Machine
end

