-- ==== Sys2Proof/Machine/Step.lean ====
section
/-!
DEFINITION. One step: the next transition of the one global order (spec/20_memory R78). It is the next arrival of the
agenda, unless a pending event must be taken first (spec/60_exceptions R304; log 9). With nothing to arrive and no
event pending the block does nothing (spec/70_reset_and_hazards R331).
-/

namespace Sys2Proof.Machine

/-- What runs for an arrival: its operation; a reserved command word is rejected with `CMD_REJECT(op)` (spec/30_encoding
R103); a reserved micro-operation code is refused (log 13). -/
def runArrival (a : Arrival) (s : State) : Host.Outcome State Fault Refusal :=
  match decode (arrivalWord a) with
  | .ok i => exec i s
  | .error (.reservedOp op) => .next (reject op s)
  | .error (.reservedUop code) => .refused (.reservedMicroOp code)

/-- One step. An event word that no pending event accompanies starts no cycle (spec/40_update_cycle R120; log 9). -/
def step (s : State) : Host.Outcome State Fault Refusal :=
  match nextTurn s with
  | some (a, t) => if enabled a t then runArrival a t else .next t
  | none => .next s

/-- The word `w` of format `nbits` (96, 48 or 8) as the next arrival, with what lets it run (log 1). -/
def State.withFetchWord (s : State) (nbits w : Nat) : State :=
  match tableWord nbits w with
  | some pw => makeReady (wordArrival pw s) (present (wordArrival pw s) s)
  | none => s

end Sys2Proof.Machine
end

