-- ==== Sys2Proof/Machine/Trace.lean ====
section
/-!
DEFINITION. The operation sequences of spec/30_encoding R106 and R107 as data: one line is an operation, a
pseudo-operation or a directive that settles what an input answers. (The characters of the text form are notation; a
line here is what the text denotes.)
-/

namespace Sys2Proof.Machine

/-- A line of a sequence (R106, R107). -/
inductive Line where
  /-- an operation that has a word -/
  | op (i : Instr)
  /-- `TICK`: `TIM_EVENT`, then `UPD` with the same codes -/
  | tick (adc : Triple U32)
  /-- `TICKS n` -/
  | ticks (n : Nat) (adc : Triple U32)
  /-- `POLLS n` -/
  | polls (n : Nat)
  /-- `.in vbus=` and the other inputs: the value stays until the next directive for the same input -/
  | inVbus (v : F32)
  | inBrakeOk (b : Bool)
  | inSupDisarm (b : Bool)
  | inLimExt (l : List F32)
  | inRotorFlux (v : F32)
  | inReqChanged (b : Bool)
  /-- `.ext meas=` and `.ext out=`: what the external law will answer -/
  | extMeas (r : MeasResult)
  | extOut (r : OutResult)
  /-- `.late k` and the `UPD` on the line after it: one `TIM_EVENT` at boundary `k` of its final `APPLY_PWM` -/
  | updLate (k : Fin 6) (adc : Triple U32)
deriving DecidableEq, Repr

/-- The words of an operation, as arrivals; a micro-operation finds its operands in the latches. -/
def opArrivals (i : Instr) (s : State) : List Arrival := [wordArrival (encode i) s]

/-- `TICK` (R107). -/
def tickArrivals (adc : Triple U32) (s : State) : List Arrival :=
  opArrivals .timEvent s ++ opArrivals (.upd adc.a adc.b adc.c) s

/-- `n` copies. -/
def copies (n : Nat) (l : List Arrival) : List Arrival := (List.replicate n l).flatten

/-- An input that answers `v` from now on. -/
def held {α : Type} (v : α) : Wire α := { queued := [], held := some v }

/-- The state with the events that the boundaries inside a cycle will draw. -/
def withEvents (w : Wire Nat) (s : State) : State := { s with env := { s.env with timEvents := w } }

/-- How many boundaries a cycle that starts in `s` passes when no event falls inside it: one before line 3, six in each
`APPLY_PWM` (spec/41_arm_commit R163), of which it performs none, one or two. -/
def boundaries (adc : Triple U32) (s : State) : Nat :=
  13 - (updCycle adc (withEvents { queued := List.replicate 13 0, held := some 0 } s)).env.timEvents.queued.length

/-- `.late k`: one event at boundary `k` of the last `APPLY_PWM` of a cycle that passes `n` boundaries. R106 does not say
what it does to a cycle without an `APPLY_PWM` (a `SENSE` or an aborted cycle): there it places no event (DESIGN CHOICE,
log 22). -/
def lateEvents (k : Fin 6) (n : Nat) : Wire Nat :=
  if n ≤ 6 then held 0 else { queued := List.replicate (n - 6 + k.val) 0 ++ [1], held := some 0 }

/-- Arrivals at the end of the agenda, with the events that fall inside a cycle among them. -/
def loadArrivals (l : List Arrival) (w : Wire Nat) (s : State) : State :=
  { withEvents w s with agenda := s.agenda ++ l }

/-- What a line adds to the machine: arrivals, no event falling inside a cycle but that of a `.late`; or a setting of
the environment. -/
def loadLine (l : Line) (s : State) : State :=
  match l with
  | .op i => loadArrivals (opArrivals i s) (held 0) s
  | .tick adc => loadArrivals (tickArrivals adc s) (held 0) s
  | .ticks n adc => loadArrivals (copies n (tickArrivals adc s)) (held 0) s
  | .polls n => loadArrivals (copies n (opArrivals .calPoll s)) (held 0) s
  | .updLate k adc => loadArrivals (opArrivals (.upd adc.a adc.b adc.c) s) (lateEvents k (boundaries adc s)) s
  | .inVbus v => { s with env := { s.env with vbus := held v } }
  | .inBrakeOk b => { s with env := { s.env with brakeOk := held b } }
  | .inSupDisarm b => { s with env := { s.env with supDisarm := held b } }
  | .inLimExt l => { s with env := { s.env with limExt := l.map held } }
  | .inRotorFlux v => { s with env := { s.env with rotorFlux := held v } }
  | .inReqChanged b => { s with env := { s.env with reqChanged := held b } }
  | .extMeas r => { s with env := { s.env with extMeas := held r } }
  | .extOut r => { s with env := { s.env with extOut := held r } }

/-- Steps the machine until the agenda is empty, at most `fuel` steps; a run that stops for another reason answers
that outcome. -/
def drain : Nat → State → Host.Outcome State Fault Refusal
  | 0, s => .next s
  | n + 1, s =>
    match s.agenda with
    | [] => .next s
    | _ :: _ =>
      match step s with
      | .next t => drain n t
      | .fault r => .fault r
      | .refused r => .refused r

/-- Runs the arrivals of a loaded line: one step each, and at most one due cycle before each. -/
def runLoaded (s : State) : Host.Outcome State Fault Refusal := drain (2 * s.agenda.length) s

/-- Runs a sequence line by line (R106: lines in order, a directive acting on what follows it). -/
def runLines : List Line → State → Host.Outcome State Fault Refusal
  | [], s => .next s
  | l :: ls, s =>
    match runLoaded (loadLine l s) with
    | .next t => runLines ls t
    | .fault r => .fault r
    | .refused r => .refused r

end Sys2Proof.Machine
end

