-- ==== Sys2Proof/Safety.lean ====
section
/-!
DEFINITION. What the statements call a faulted block, driven outputs, a quiet environment and a sound state.
-/

namespace Sys2Proof.Machine

/-- A fault has been recorded and not cleared: "S.error ≠ 0" (spec/00_scope R26). -/
abbrev State.faulted (s : State) : Prop := s.run.error ≠ 0#32

/-- The phases are driven; otherwise they float (spec/10_state R47). -/
abbrev State.driven (s : State) : Prop := s.tim.moe = true

/-- The post-condition of a disarm (spec/41_arm_commit R159): phases floating, no enable pending, no law attached. -/
abbrev State.safeOff (s : State) : Prop :=
  s.tim.moe = false ∧ s.tim.aoe = false ∧ s.run.law = .none ∧ s.run.isArmed = false

/-- No timer event falls inside an operation from here on. -/
abbrev State.quiet (s : State) : Prop := s.env.timEvents = { queued := [], held := some 0 }

/-- `S.is_armed = 1` exactly when `S.law ≠ NONE` (spec/10_state R36). -/
abbrev State.armedIffLaw (s : State) : Prop := s.run.isArmed = true ↔ s.run.law ≠ .none

/-- The bits 31 to 13 of the error mask are 0 (spec/10_state R33; spec/30_encoding R91). -/
abbrev State.maskInRange (s : State) : Prop := s.run.error &&& ~~~errorBits = 0#32

/-- The output is enabled only after the latch was set, and the latch is set only while armed (R159). -/
abbrev State.enableChain (s : State) : Prop :=
  (s.tim.moe = true → s.tim.aoe = true) ∧ (s.tim.aoe = true → s.run.isArmed = true)

/-- A running sequence is in a wait loop, and no loop has slept more often than its ceiling (spec/45_calibration R283,
R287; spec/30_encoding R108 (d)). -/
abbrev State.calSound (s : State) : Prop :=
  (s.cal.seq = true → s.cal.state ≠ .idle) ∧
  (s.cal.state = .rWait → s.cal.cnt ≤ s.par.rCalPolls) ∧
  (s.cal.state = .lWait → s.cal.cnt ≤ s.par.lCalPolls)

/-- The invariant every step keeps. -/
abbrev State.sound (s : State) : Prop := s.armedIffLaw ∧ s.maskInRange ∧ s.enableChain ∧ s.calSound

end Sys2Proof.Machine
end

