-- ==== Sys2Proof/Certificates/Slice0/Obligations.lean ====
section
/-!
DEFINITION. The statements for the provers. First the words they use (namespace Sys2Proof.Claims), each written from
the spec and not from the machine's own helper of the same purpose wherever the two could differ.
-/

namespace Sys2Proof.Claims

open Sys2Proof.Machine

/-- The number a finite binary32 datum stands for (spec/00_scope R16): `(-1)^n · f · 2^-149` for a zero exponent field,
else `(-1)^n · (2^23 + f) · 2^(e - 150)`. -/
def value : F32 → ℚ
  | .finite n e f =>
    (if n then -1 else 1) *
      ((if e.val = 0 then (f.toNat : ℚ) else 2 ^ 23 + (f.toNat : ℚ)) * (2 : ℚ) ^ (((max e.val 1 : Nat) : ℤ) - 150))
  | .inf _ => 0
  | .nan _ _ => 0

/-- The sign bit. -/
def sign : F32 → Bool
  | .finite n _ _ => n
  | .inf n => n
  | .nan n _ => n

/-- `r` is `q` rounded to nearest, ties to even: a finite datum nearest to `q`, of even fraction where another datum
is as near; an infinity from half a unit past the largest finite datum on. -/
def roundsTo (q : ℚ) (r : F32) : Prop :=
  match r with
  | .finite _ _ f =>
    |q| < 2 ^ 128 - 2 ^ 103 ∧
    (∀ z : F32, z.isFinite = true → |q - value r| ≤ |q - value z|) ∧
    (∀ z : F32, z.isFinite = true → |q - value z| = |q - value r| → value z ≠ value r → f.getLsbD 0 = false)
  | .inf n => 2 ^ 128 - 2 ^ 103 ≤ |q| ∧ n = decide (q < 0)
  | .nan _ _ => False

/-- The `op` values of spec/30_encoding R96. -/
def listedOps : List U8 :=
  [0x00, 0x01, 0x02, 0x03, 0x04, 0x05, 0x06, 0x07, 0x10, 0x11, 0x12, 0x13, 0x20, 0x21, 0x30, 0x31]

/-- The commands whose word carries a `sel`, and the one that carries `data` (R96). -/
def usesSel : Instr → Bool
  | .arm _ | .disarmErr _ | .cfgWr _ _ | .regRd _ => true
  | _ => false
def usesData : Instr → Bool
  | .cfgWr _ _ => true
  | _ => false

/-- The encoder's word for `i` agrees with `w` in every bit the operation reads. -/
def sameWord (w : PortWord) (i : Instr) : Prop :=
  match w with
  | .upd96 v => encode i = .upd96 v
  | .uop8 c => encode i = .uop8 c
  | .cmd48 v =>
    ∃ v' : BitVec 48, encode i = .cmd48 v' ∧ cmdOp v' = cmdOp v ∧
      (usesSel i = true → cmdSel v' = cmdSel v) ∧ (usesData i = true → cmdData v' = cmdData v)

/-- A command word that is rejected (R103). -/
def illegal (w : BitVec 48) (s : State) : Prop :=
  cmdOp w ∉ listedOps ∨
  (cmdOp w = 0x01#8 ∧ ((cmdSel w).toNat < 1 ∨ 3 < (cmdSel w).toNat)) ∨
  (cmdOp w = 0x03#8 ∧ 12 < (cmdSel w).toNat) ∨
  (cmdOp w = 0x20#8 ∧ 0x0F < (cmdSel w).toNat) ∨
  (cmdOp w = 0x21#8 ∧ 0x2F < (cmdSel w).toNat) ∨
  (cmdOp w ∈ [0x07#8, 0x10#8, 0x11#8, 0x12#8, 0x20#8] ∧ s.cal.state ≠ .idle) ∨
  (cmdOp w = 0x20#8 ∧ s.run.isArmed = true)

/-- The state once the arrival is taken; a micro-operation's operands are in the latches. `owed` says that the pending
event can be delayed no further (log 9): a `TIM_EVENT`, code 0x80, keeps it, any other arrival uses the delay up. -/
def popped (a : Arrival) (rest : List Arrival) (s : State) : State :=
  match a with
  | .uop8 c o =>
    { s with agenda := rest, opnd := o, owed := if c = 0x80#8 then s.tim.uif && s.owed else s.tim.uif }
  | .upd96 _ => { s with agenda := rest, owed := s.tim.uif }
  | .cmd48 _ => { s with agenda := rest, owed := s.tim.uif }

/-- The arrival waits for the cycle of a pending event that can be delayed no further (spec/60_exceptions R304). -/
def mustWait (a : Arrival) (s : State) : Prop :=
  s.tim.uif = true ∧ s.owed = true ∧
    match a with
    | .upd96 _ => False
    | .cmd48 _ => True
    | .uop8 c _ => c ≠ 0x80#8

/-- `BRK_RECOMP`, emitted by a disarm that found the block armed (spec/41_arm_commit R158). -/
def brk (s : State) : List Event := if s.run.isArmed then [.brkRecomp] else []

/-- Fault entry, exactly (spec/60_exceptions R306): mask `m` ORed in, output off, latch cleared, law detached,
disarmed, `BRK_RECOMP` if the block was armed, nothing else. -/
def recorded (m : U32) (s : State) : State :=
  { s with
    run := { s.run with error := s.run.error ||| m, law := .none, isArmed := false }
    tim := { s.tim with moe := false, aoe := false }
    out := s.out ++ brk s }

/-- A refused command (spec/30_encoding R103): `CMD_REJECT(op)`, nothing else. -/
def rejected (op : U8) (s : State) : State := { s with out := s.out ++ [.cmdReject op] }

/-- Fault entry if `c`. -/
def recordedIf (c : Prop) [Decidable c] (m : U32) (s : State) : State := if c then recorded m s else s

/-- A sensed phase's code is outside the band and is not the sentinel (spec/42_acquisition_filter R182). -/
abbrev saturatedB (p : Params) (k : Nat) (c : U32) : Bool :=
  p.senseMask.getLsbD k && decide (c ≠ p.adcInvalid) && (decide (c < p.adcLower) || decide (p.adcUpper < c))

/-- A sanitised code (R182, R183). -/
def sanitized (p : Params) (k : Nat) (c : U32) : U32 :=
  if p.senseMask.getLsbD k = false ∨ saturatedB p k c = true then p.adcInvalid else c

/-- Some sensed phase is saturated. -/
abbrev anySaturated (p : Params) (adc : Triple U32) : Prop :=
  saturatedB p 0 adc.a = true ∨ saturatedB p 1 adc.b = true ∨ saturatedB p 2 adc.c = true

/-- `ADC2AMP` (R184). -/
def amps (p : Params) (c : U32) : F32 :=
  if c = p.adcInvalid then F32.qnan
  else
    ((((F32.ofInt ((c.toNat : Int) - 2 ^ (p.adcBits - 1))).mul p.adcVPerLsb).mul p.revGain).mul p.shuntG)

/-- `INFER` (R186). -/
def inferred (m : BitVec 3) (i : Triple F32) : Triple F32 :=
  if m = 0b110#3 then ⟨(i.b.add i.c).neg, i.b, i.c⟩
  else if m = 0b101#3 then ⟨i.a, (i.a.add i.c).neg, i.c⟩
  else if m = 0b011#3 then ⟨i.a, i.b, (i.a.add i.b).neg⟩
  else i

/-- The currents of a cycle (spec/40_update_cycle R121, lines 8 and 9). -/
def currents (p : Params) (adc : Triple U32) : Triple F32 :=
  inferred p.senseMask
    ⟨amps p (sanitized p 0 adc.a), amps p (sanitized p 1 adc.b), amps p (sanitized p 2 adc.c)⟩

/-- An option as a number (spec/10_state R45). -/
def opt (n : Fin 16) (s : State) : F32 := F32.ofBits (s.cfg.get n)

/-- The filter after one update (spec/42_acquisition_filter R190). -/
def filtered (i : Triple F32) (s : State) : Machine.Filter :=
  if i.a.isNaN || i.b.isNaN || i.c.isNaN then ⟨⟨F32.zero, F32.zero, F32.zero⟩, F32.zero⟩
  else
    let k := F32.min (s.par.tMeas.div (opt 0x09 s)) F32.one
    ⟨⟨s.dcf.off.a.add ((i.a.sub s.dcf.off.a).mul k), s.dcf.off.b.add ((i.b.sub s.dcf.off.b).mul k),
      s.dcf.off.c.add ((i.c.sub s.dcf.off.c).mul k)⟩, s.dcf.since.add s.par.tMeas⟩

/-- The formula of R192. -/
def warmedUp (s : State) : Bool :=
  F32.le (s.par.dcfWarmup.mul (opt 0x09 s)) s.dcf.since && F32.lt s.dcf.off.a.abs s.par.dcCalibMax &&
    F32.lt s.dcf.off.b.abs s.par.dcCalibMax && F32.lt s.dcf.off.c.abs s.par.dcCalibMax

/-- Two or three phases have no sensor (R187). -/
abbrev blind (p : Params) : Prop := p.senseMask ∈ [0b000#3, 0b001#3, 0b010#3, 0b100#3]

/-- The filter is valid: R192's formula, but never with a negative time constant (R191) nor, with two or three sensors
missing, at a warm-up time of zero (R187), which is the model's reading of rules that differ (log 21). -/
def filterValid (s : State) : Bool :=
  F32.le F32.zero (opt 0x09 s) && (decide (¬ blind s.par) || F32.lt F32.zero s.dcf.since) && warmedUp s

/-- The corrected currents (R194). -/
def corrected (s : State) (i : Triple F32) : Triple F32 :=
  if filterValid s then ⟨i.a.sub s.dcf.off.a, i.b.sub s.dcf.off.b, i.c.sub s.dcf.off.c⟩
  else ⟨F32.qnan, F32.qnan, F32.qnan⟩

/-- The leakage trips (R196). -/
abbrev leaks (s : State) : Prop := F32.lt (opt 0x0A s) s.lat.iLeak.abs = true

/-- The over-current comparator trips (spec/44_limits R254). -/
abbrev overCurrent (s : State) : Prop :=
  let trip := s.lat.iLimEff.add (opt 0x0D s)
  let i := s.lat.iMeas
  F32.lt (trip.mul trip)
    ((F32.two.div F32.three).mul (((i.a.mul i.a).add (i.b.mul i.b)).add (i.c.mul i.c))) = true

/-- The bus-current comparator trips (spec/40_update_cycle R134). -/
abbrev busTrips (s : State) : Prop :=
  F32.lt s.lat.iBus (opt 0x0B s) = true ∨ F32.lt (opt 0x0C s) s.lat.iBus = true

/-- `VALID_DUTY` (R130). -/
abbrev dutyOk (d : Triple F32) : Prop :=
  (F32.le F32.zero d.a = true ∧ F32.le d.a F32.one = true) ∧
  (F32.le F32.zero d.b = true ∧ F32.le d.b F32.one = true) ∧
  (F32.le F32.zero d.c = true ∧ F32.le d.c F32.one = true)

/-- `DUTY2CCR` inside its domain (spec/30_encoding R100). -/
def ccr (p : Params) (d : F32) : U16 := (d.mul (F32.ofInt p.pwmFull.toNat)).floorU16

/-- `IBUS_SUM` (R131). -/
def busSum (s : State) (d : Triple F32) : F32 :=
  (((s.par.ibusWeight.sub d.a).mul s.lat.iMeas.a).add ((s.par.ibusWeight.sub d.b).mul s.lat.iMeas.b)).add
    ((s.par.ibusWeight.sub d.c).mul s.lat.iMeas.c)

/-- The answers of `n` limiters from number `i` on, in order (spec/44_limits R251). -/
def answers : Nat → Nat → State → List F32
  | 0, _, _ => []
  | n + 1, i, s => limNow i s :: answers n (i + 1) (limRead i s)

/-- The effective current limit of an evaluation that starts in `s` (R251). -/
def limit (s : State) : F32 :=
  let g := s.cfg.get 0x00 = 1#32
  let hw := if g then s.par.hwLimVOf (vbusNow s) else s.par.hwLimI
  (answers s.par.nLim 0 (if g then vbusRead s else s)).foldl F32.min (F32.min (opt 0x01 s) hw)

/-- Entry of the resistance measurement (spec/45_calibration R274), with `ARM` accepted or refused. -/
def rStarted (seq : Bool) (s : State) : State :=
  { brakeRead s with
    rk := ⟨opt 0x07 s, opt 0x08 s, F32.zero, F32.qnan, F32.zero⟩
    run := if brakeNow s then { s.run with law := .rmeas, isArmed := true } else s.run
    out := if brakeNow s then s.out ++ [.extReset] else s.out
    cal := { s.cal with seq := seq, cnt := 0#32, state := .rWait } }

/-- Entry of the inductance measurement (R279). -/
def lStarted (seq : Bool) (s : State) : State :=
  { brakeRead s with
    lk := ⟨s.par.lTestV.getD (opt 0x08 s), false, F32.zero, F32.zero, 0#32, 0#32⟩
    run := if brakeNow s then { s.run with law := .lmeas, isArmed := true } else s.run
    out := if brakeNow s then s.out ++ [.extReset] else s.out
    cal := { s.cal with seq := seq, cnt := 0#32, state := .lWait } }

/-- The two gains (R285). -/
def gainPair (s : State) : Gains :=
  let p := (opt 0x04 s).mul (opt 0x06 s)
  ⟨p, ((opt 0x05 s).div (opt 0x06 s)).mul p⟩

/-- The ceiling of the running loop (R283). -/
def ceiling (s : State) : U32 := if s.cal.state = .rWait then s.par.rCalPolls else s.par.lCalPolls

/-- How a poll ends the loop, `none` when it goes on (R283, R282). -/
def exitReason (s : State) : Option Nat :=
  if ceiling s ≤ s.cal.cnt then some 0
  else if reqNow s = true then some 1
  else if s.run.isArmed = false then some 2
  else none

/-- The state after the input a poll reads: `req_changed`, unless the ceiling was reached. -/
def polled (s : State) : State := if ceiling s ≤ s.cal.cnt then s else reqRead s

/-- A measurement ended with value `v`, reason `r` (R276, R281): disarmed, the value stored in option `n` whether or
not finite, kind mask `m` recorded if it is not, the result word `{r, ok}` emitted. -/
def measured (n : Fin 16) (m : U32) (op : U8) (r : Nat) (v : F32) (s : State) : State :=
  let ok := s.run.isArmed && v.isFinite
  { s with
    run := { s.run with error := s.run.error ||| (if v.isFinite then 0#32 else m), law := .none, isArmed := false }
    tim := { s.tim with moe := false, aoe := false }
    cfg := s.cfg.set n.val v.toBits n.isLt
    cal := { s.cal with ok := ok }
    out := s.out ++ brk s ++ [.cmdResult op (BitVec.ofNat 32 (2 * r + ok.toNat))] }

/-- The inductance a measurement reports (spec/43_control_law R233). -/
def inductance (s : State) : F32 :=
  s.lk.v.abs.div (s.lk.dI.div ((F32.ofInt ((s.lk.t1 - s.lk.t0).toNat : Int)).div s.par.tickHz))

/-- The resistance kernel after a measurement of axis current `ia` (spec/43_control_law R221). -/
def measuredR (vbus ia : F32) (s : State) : RKernel :=
  let v := s.rk.v.add ((s.par.kiR.mul s.par.tMeas).mul (s.rk.target.sub ia))
  { s.rk with
    i := ia
    v := v
    mod := if F32.lt s.rk.vmax v.abs = true ∨ vbus.isNaN = true then s.rk.mod else v.div vbus }

/-- Its answer: the bound is tested on the integrator just moved, and before the bus voltage (R221, R222). -/
def answerR (vbus ia : F32) (s : State) : MeasResult :=
  if F32.lt s.rk.vmax (measuredR vbus ia s).v.abs then .err .phaseResistanceOutOfRange
  else if vbus.isNaN then .err .unknownVbusVoltage else .success

/-- What the resistance kernel asks for (R223). -/
def askedR (s : State) : OutResult :=
  if s.rk.mod.isNaN then .err .controllerInitializing else .duty (s.par.axisDutyOf s.rk.mod)

/-- The inductance kernel after a measurement of axis current `ia` at time `ts` (R229). -/
def measuredL (vbus ia : F32) (ts : U32) (s : State) : LKernel :=
  if vbus.isNaN = true ∨ ia.isNaN = true then s.lk
  else if s.lk.attached then
    let sg := if F32.le F32.zero s.lk.v then F32.one else F32.minusOne
    { s.lk with dI := s.lk.dI.add ((s.par.rippleNum.mul sg).mul (ia.sub s.lk.lastI)), lastI := ia, t1 := ts }
  else { s.lk with t0 := ts, attached := true, lastI := ia, t1 := ts }

/-- Its answer (R229). -/
def answerL (vbus ia : F32) : MeasResult :=
  if vbus.isNaN = true ∨ ia.isNaN = true then .err .unknownVbusVoltage else .success

/-- What the inductance kernel asks for, `vbus` being the one reading it takes (R231; log 10). -/
def askedL (vbus : F32) (s : State) : OutResult :=
  if vbus.isNaN then .err .unknownVbusVoltage else .duty (s.par.axisDutyOf (s.lk.v.neg.div vbus))

/-- The inductance kernel after that: the test voltage alternates unless the bus voltage is unknown (R231). -/
def flippedL (vbus : F32) (s : State) : LKernel := if vbus.isNaN then s.lk else { s.lk with v := s.lk.v.neg }

/-- The answer of `LAW_MEAS` for each law (R211); `q` is the external law's. -/
def fedAnswer (l : LawSel) (q : MeasResult) (vbus ia : F32) (s : State) : MeasResult :=
  match l with
  | .none => .success
  | .rmeas => answerR vbus ia s
  | .lmeas => answerL vbus ia
  | .ext => q

/-- The answer of `LAW_OUT` for each law (R212); `q` is the external law's, and stands for none without a law. -/
def askedAnswer (l : LawSel) (q : OutResult) (vbus : F32) (s : State) : OutResult :=
  match l with
  | .none => q
  | .rmeas => askedR s
  | .lmeas => askedL vbus s
  | .ext => q

/-- The bit a measurement's answer records. -/
def answerBit (r : MeasResult) : U32 :=
  match r with
  | .success => 0#32
  | .err k => kindMask k

/-- The three codes of the fallback. -/
def halves (p : Params) : Triple U16 := ⟨p.half, p.half, p.half⟩

/-- The codes of a duty vector. -/
def codes (p : Params) (d : Triple F32) : Triple U16 := ⟨ccr p d.a, ccr p d.b, ccr p d.c⟩

/-- What a `SENSE` cycle latches from currents `i` (spec/40_update_cycle R128): the corrected currents, their sum, and
the limit evaluated after the supervisor's read, no other input but the count of timer events having been read. -/
def senseLatches (i : Triple F32) (s : State) : Latches :=
  let m := corrected s i
  { s.lat with iMeas := m, iLeak := (m.a.add m.b).add m.c, iLimEff := limit (supRead (timRead s)) }

/-- The timer after `TIM_EVENT` (spec/41_arm_commit R166). -/
def eventTim (m : Tim) : Tim :=
  { m with ccrAct := m.ccrSh, moe := if m.aoe then true else m.moe, dir := !m.dir, uif := true }

/-- `m` timer events at one place of a cycle, after `n` places without any (spec/20_memory R80). -/
def eventsAt (n m : Nat) : Wire Nat := { queued := List.replicate n 0 ++ [m], held := some 0 }

/-- The timer once a disarm has switched the output off. -/
def floating (m : Tim) : Tim := { m with moe := false, aoe := false }

/-- The forty-eight registers of `REG` in order (spec/10_state R45, R50); `STATUS` by its bits (R51). -/
def registers (s : State) : List U32 :=
  s.cfg.toList ++
  [s.run.error,
   BitVec.ofNat 32
     (s.run.isArmed.toNat + 2 * s.run.countingDown.toNat + 4 * (lawNum s.run.law).toNat + 16 * s.tim.moe.toNat +
      32 * s.tim.aoe.toNat + 64 * s.tim.uif.toNat + 128 * s.tim.dir.toNat + 256 * (calNum s.cal.state).toNat +
      1024 * s.cal.ok.toNat + 2048 * s.cal.seq.toNat + 4096 * s.lk.attached.toNat),
   s.run.ts, s.lat.iMeas.a.toBits, s.lat.iMeas.b.toBits, s.lat.iMeas.c.toBits,
   s.dcf.off.a.toBits, s.dcf.off.b.toBits, s.dcf.off.c.toBits, s.dcf.since.toBits,
   s.lat.iLeak.toBits, s.lat.iBus.toBits, s.lat.iLimEff.toBits, s.gain.p.toBits, s.gain.i.toBits, s.cal.cnt,
   s.rk.v.toBits, s.rk.mod.toBits, s.rk.target.toBits, s.rk.vmax.toBits,
   s.lk.v.toBits, s.lk.dI.toBits, s.lk.lastI.toBits, s.lk.t0, s.lk.t1,
   s.tim.ccrSh.a.setWidth 32, s.tim.ccrSh.b.setWidth 32, s.tim.ccrSh.c.setWidth 32,
   s.tim.ccrAct.a.setWidth 32, s.tim.ccrAct.b.setWidth 32, s.tim.ccrAct.c.setWidth 32, s.rk.i.toBits]

/-- What a late event at boundary `k` latches: new codes up to the micro-step before it, old shadows after
(spec/41_arm_commit R163). -/
def torn (k : Nat) (new old : Triple U16) : Triple U16 :=
  ⟨if 2 ≤ k then new.a else old.a, if 3 ≤ k then new.b else old.b, if 4 ≤ k then new.c else old.c⟩

/-- Lines 1 and 2 of `UPD` (spec/40_update_cycle R125). -/
def begun (s : State) : State :=
  { s with tim := { s.tim with uif := false }, run := { s.run with ts := s.run.ts + s.par.tUpdTicks } }

/-- Two outcomes that differ at most in the error mask of the next state. -/
def sameButError (o o' : Host.Outcome State Fault Refusal) : Prop :=
  match o, o' with
  | .next t, .next t' =>
    { t with run := { t.run with error := 0#32 } } = { t' with run := { t'.run with error := 0#32 } }
  | .refused r, .refused r' => r = r'
  | _, _ => False

/-- Option `n` rewritten. -/
def setOption (n : Fin 16) (v : U32) (s : State) : State := { s with cfg := s.cfg.set n.val v n.isLt }

/-- An outcome's next state rewritten. -/
def mapNext (f : State → State) (o : Host.Outcome State Fault Refusal) : Host.Outcome State Fault Refusal :=
  match o with
  | .next t => .next (f t)
  | .fault r => .fault r
  | .refused r => .refused r

/-- The command asks for an arm: `ARM` and the three commands that start a measurement. -/
def asksArm (a : Arrival) : Prop :=
  ∃ i, decode (arrivalWord a) = .ok i ∧ ((∃ sel, i = .arm sel) ∨ i = .calRun ∨ i = .calR ∨ i = .calL)

/-- The bits of a fault mask. -/
def bitIf (c : Prop) [Decidable c] (m : U32) : U32 := if c then m else 0#32

end Sys2Proof.Claims

open Sys2Proof Sys2Proof.Machine Sys2Proof.Claims

/-! Encoding and decoding (spec/30_encoding). -/

/-- Decode and encode agree, both ways: no operand bit is lost, and the encoder's word is the decoded one in every bit
that is read. R94, R95, R96, R97. -/
def Obligations.DecodeEncodeAgree : Prop :=
  (∀ i : Instr, decode (encode i) = .ok i) ∧ (∀ (w : PortWord) (i : Instr), decode w = .ok i → sameWord w i)

/-- R96, R103: a command word decodes exactly when its `op` is listed (an illegal `sel` is the operation's to reject: the
model's choice, log 11); an illegal one that arrives (the agenda is the model's, log 1; no event's cycle is due before
it, log 9) changes no state and emits `CMD_REJECT(op)`. -/
def Obligations.IllegalCommandRejected : Prop :=
  (∀ w : BitVec 48, (∃ i, decode (.cmd48 w) = .ok i) ↔ cmdOp w ∈ listedOps) ∧
  (∀ (s : State) (w : BitVec 48) (rest : List Arrival), s.agenda = .cmd48 w :: rest → ¬ mustWait (.cmd48 w) s →
    illegal w s → step s = .next (rejected (cmdOp w) (popped (.cmd48 w) rest s)))

/-- A step takes the first arrival and runs the operation it decodes to (log 1), an event word when an event is pending
(R22, R120). Such a word without an event starts nothing; an arrival that waits, and an empty agenda, let the pending
event's cycle go first (R304; log 9); with nothing to arrive and no event the step changes nothing; a reserved
micro-operation code is refused (log 13). -/
def Obligations.StepRunsDecoded : Prop :=
  (∀ (s : State) (a : Arrival) (rest : List Arrival) (i : Instr), s.agenda = a :: rest →
    decode (arrivalWord a) = .ok i → ¬ mustWait a s → (∀ w, a = .upd96 w → s.tim.uif = true) →
    step s = exec i (popped a rest s)) ∧
  (∀ (s : State) (w : BitVec 96) (rest : List Arrival), s.agenda = .upd96 w :: rest → s.tim.uif = false →
    step s = .next (popped (.upd96 w) rest s)) ∧
  (∀ s : State, s.tim.uif = true → (s.agenda = [] ∨ ∃ a rest, s.agenda = a :: rest ∧ mustWait a s) →
    step s = exec (decodeUpd (eventWordNow s)) { eventWordRead s with owed := true }) ∧
  (∀ s : State, s.agenda = [] → s.tim.uif = false → step s = .next s) ∧
  (∀ (s : State) (c : U8) (o : Operands) (rest : List Arrival), s.agenda = .uop8 c o :: rest → ¬ mustWait (.uop8 c o) s →
    decode (.uop8 c) = .error (.reservedUop c) → step s = .refused (.reservedMicroOp c))

/-- R304, R79 (d): a pending event is delayed by at most one command. With an event pending and two commands to come, any
number of timer events between them, the cycle runs after the first command and before the second (how the agenda is
scheduled is the model's, log 9). -/
def Obligations.PendingEventDelayedByOneCommand : Prop :=
  ∀ (s : State) (w w' : BitVec 48) (n : Nat) (o : Operands) (rest : List Arrival),
    s.tim.uif = true → s.owed = false →
    s.agenda = .cmd48 w :: (List.replicate n (.uop8 0x80#8 o) ++ .cmd48 w' :: rest) →
    ∃ t : State, Host.Core.run Sys2Proof.core (n + 2) s = .next t ∧
      t.run.ts = s.run.ts + s.par.tUpdTicks ∧ t.agenda = .cmd48 w' :: rest ∧ (s.quiet → t.tim.uif = false)

/-- Words written out from the tables of spec/30_encoding and spec/95_test_vectors section 1.4 decode to what they
stand for. -/
def Obligations.WordsDecodeAsWritten : Prop :=
  decode (.cmd48 0x010300000000#48) = .ok (.arm 3#8) ∧
  decode (.cmd48 0x030800000000#48) = .ok (.disarmErr 8#8) ∧
  decode (.cmd48 0x200141200000#48) = .ok (.cfgWr 1#8 0x41200000#32) ∧
  decode (.cmd48 0x211A00000000#48) = .ok (.regRd 0x1A#8) ∧
  decode (.upd96 0x00000809000007F9000007FE#96) = .ok (.upd 2057#32 2041#32 2046#32) ∧
  decode (.uop8 0x9A#8) = .ok .duty2ccr ∧
  decode (.uop8 0xA6#8) = .ok .lawOutL

/-! Numbers (spec/00_scope R16, R17; spec/10_state R50). -/

/-- R16: sum, difference, product, quotient and integer conversion are the exact value rounded to nearest, ties to
even; the sign of a product or quotient is the exclusive or of the signs; an exactly zero sum is +0 unless both terms
are negative, and an exactly zero difference is +0 unless the first term is negative and the second is not. -/
def Obligations.ArithmeticRoundsToNearestEven : Prop :=
  (∀ x y : F32, x.isFinite = true → y.isFinite = true →
    roundsTo (value x + value y) (x.add y) ∧ roundsTo (value x - value y) (x.sub y) ∧
    roundsTo (value x * value y) (x.mul y) ∧ sign (x.mul y) = (sign x ^^ sign y) ∧
    (value y ≠ 0 → roundsTo (value x / value y) (x.div y) ∧ sign (x.div y) = (sign x ^^ sign y)) ∧
    (value x + value y = 0 → x.add y = .finite (sign x && sign y) 0 0#23) ∧
    (value x - value y = 0 → x.sub y = .finite (sign x && !sign y) 0 0#23)) ∧
  (∀ i : Int, roundsTo (i : ℚ) (F32.ofInt i))

/-- R17: comparisons follow the values (negative zero equals zero) and are false on NaN; `min(x, y)` is
`if y < x then y else x`. -/
def Obligations.ComparisonsFollowValues : Prop :=
  (∀ x y : F32, x.isFinite = true → y.isFinite = true →
    (F32.lt x y = true ↔ value x < value y) ∧ (F32.le x y = true ↔ value x ≤ value y)) ∧
  (∀ x y : F32, (x.isNaN = true ∨ y.isNaN = true) → F32.lt x y = false ∧ F32.le x y = false) ∧
  (∀ x : F32, x.isFinite = true →
    F32.lt (.inf true) x = true ∧ F32.lt x (.inf false) = true ∧ F32.lt x (.inf true) = false ∧
    F32.lt (.inf false) x = false ∧ F32.le (.inf true) x = true ∧ F32.le x (.inf false) = true ∧
    F32.le x (.inf true) = false ∧ F32.le (.inf false) x = false) ∧
  (∀ n m : Bool, F32.lt (.inf n) (.inf m) = (n && !m) ∧ F32.le (.inf n) (.inf m) = (n || !m)) ∧
  (∀ x y : F32, (x.isNaN = true → F32.min x y = x) ∧ (y.isNaN = true → F32.min x y = x) ∧
    (F32.lt y x = true → F32.min x y = y) ∧ (F32.lt y x = false → F32.min x y = x))

/-- spec/10_state R50: a number and its 32-bit pattern determine each other. -/
def Obligations.BitPatternsBijective : Prop :=
  (∀ x : F32, F32.ofBits x.toBits = x) ∧ (∀ w : U32, (F32.ofBits w).toBits = w)

/-- The operations on NaN, infinities and zero divisors (IEEE 754, R16), every sign among them: with a NaN; two infinities;
an infinity and a finite datum, in either place; a finite datum by a zero. Which NaN results is free (log 6). -/
def Obligations.SpecialOperands : Prop :=
  (∀ x y : F32, (x.isNaN = true ∨ y.isNaN = true) →
    (x.add y).isNaN = true ∧ (x.sub y).isNaN = true ∧ (x.mul y).isNaN = true ∧ (x.div y).isNaN = true) ∧
  (∀ n : Bool,
    F32.add (.inf n) (.inf n) = .inf n ∧ (F32.add (.inf n) (.inf (!n))).isNaN = true ∧
    F32.sub (.inf n) (.inf (!n)) = .inf n ∧ (F32.sub (.inf n) (.inf n)).isNaN = true) ∧
  (∀ n m : Bool, F32.mul (.inf n) (.inf m) = .inf (n ^^ m) ∧ (F32.div (.inf n) (.inf m)).isNaN = true) ∧
  (∀ (n : Bool) (x : F32), x.isFinite = true →
    F32.add (.inf n) x = .inf n ∧ F32.add x (.inf n) = .inf n ∧
    F32.sub (.inf n) x = .inf n ∧ F32.sub x (.inf n) = .inf (!n) ∧
    (value x ≠ 0 → F32.mul (.inf n) x = .inf (n ^^ sign x) ∧ F32.mul x (.inf n) = .inf (n ^^ sign x)) ∧
    (value x = 0 → (F32.mul (.inf n) x).isNaN = true ∧ (F32.mul x (.inf n)).isNaN = true) ∧
    F32.div (.inf n) x = .inf (n ^^ sign x) ∧ F32.div x (.inf n) = .finite (n ^^ sign x) 0 0#23) ∧
  (∀ x y : F32, x.isFinite = true → y.isFinite = true → value y = 0 →
    (value x ≠ 0 → F32.div x y = .inf (sign x ^^ sign y)) ∧ (value x = 0 → (F32.div x y).isNaN = true)) ∧
  (∀ x : F32, x.abs = (if sign x then x.neg else x)) ∧
  F32.zero.toBits = 0#32 ∧ F32.qnan.toBits = 0x7FC00000#32 ∧ F32.one.toBits = 0x3F800000#32

/-- spec/00_scope R10, R11: the derived parameters, the literals having the source's values. -/
def Obligations.DerivedParameters : Prop :=
  ∀ p : Params, p.sourceLiterals = true →
    p.half.toNat = p.pwmFull.toNat / 2 ∧ p.adcMid = 2 ^ (p.adcBits - 1) ∧
    p.tUpd = (F32.ofInt (p.tUpdTicks.toNat : Int)).div p.tickHz ∧ p.tMeas = F32.two.mul p.tUpd ∧
    (p.axisDuty = .balanced → ∀ f : F32, p.axisDutyOf f =
      ⟨F32.half.add f, F32.half.sub (F32.half.mul f), F32.half.sub (F32.half.mul f)⟩)

/-! Reset and invariants (spec/10_state, spec/41_arm_commit). -/

/-- spec/10_state R59 (with COUNTING_DOWN_RESET at its decided value 0; the rows "unspecified" are the argument `l`, as
R60 says). -/
def Obligations.ResetState : Prop :=
  ∀ (p : Params) (l : Launch), p.countingDownReset = false →
    let s := State.resetWith p l
    s.run = { isArmed := false, law := .none, error := 0#32, ts := 0#32, countingDown := false } ∧
    s.dcf = { off := ⟨F32.zero, F32.zero, F32.zero⟩, since := F32.zero } ∧
    s.lat = { iMeas := ⟨F32.qnan, F32.qnan, F32.qnan⟩, iLeak := F32.qnan, iBus := F32.zero, iLimEff := F32.zero } ∧
    s.rk = { target := F32.zero, vmax := F32.zero, v := F32.zero, mod := F32.qnan, i := F32.zero } ∧
    s.lk = { v := F32.zero, attached := false, dI := F32.zero, lastI := F32.zero, t0 := 0#32, t1 := 0#32 } ∧
    s.gain = ⟨l.pGain, l.iGain⟩ ∧ s.cfg = l.cfg ∧
    s.cal = { state := .idle, cnt := 0#32, seq := false, ok := false } ∧
    s.tim = { ccrSh := ⟨p.half, p.half, p.half⟩, ccrAct := ⟨p.half, p.half, p.half⟩, aoe := false, moe := false,
              uif := false, dir := false } ∧
    s.out = []

/-- Every launch state is sound, whatever the configuration registers then hold; `State.reset` (log 3, log 5) is one,
whose literals are the source's and whose COUNTING_DOWN_RESET is the decided 0 (spec/00_scope R10, R11). -/
def Obligations.SoundAtReset : Prop :=
  (∀ (p : Params) (l : Launch) (c : Vector U32 16), ({ State.resetWith p l with cfg := c } : State).sound) ∧
    State.reset.sound ∧
    Config.params.sourceLiterals = true ∧ Config.params.countingDownReset = false

/-- Every step of a sound state leads to a sound state: armed exactly with a law, reserved mask bits 0, enable only
after the latch and the latch only while armed, a running sequence in a wait loop below its ceiling. -/
def Obligations.StepKeepsSound : Prop := ∀ s t : State, s.sound → step s = .next t → t.sound

/-- R36, for every interleaving: whatever operations arrive and whatever the environment answers, every state a run
from a launch state reaches, whatever the configuration registers held, is armed exactly when a law is attached. -/
def Obligations.ReachableArmedIffLaw : Prop :=
  ∀ (p : Params) (l : Launch) (c : Vector U32 16) (ag : List Arrival) (e : Env) (o : Operands) (k : Nat) (t : State),
    Host.Core.run Sys2Proof.core k ({ State.resetWith p l with cfg := c, agenda := ag, env := e, opnd := o } : State) =
      .next t →
    (t.run.isArmed = true ↔ t.run.law ≠ .none)

/-- spec/10_state R33: a bit of the error mask that is set stays set under every operation but `CLR_ERR`. -/
def Obligations.ErrorBitsSticky : Prop :=
  ∀ (i : Instr) (s t : State), i ≠ .clrErr → exec i s = .next t →
    ∀ b : Nat, s.run.error.getLsbD b = true → t.run.error.getLsbD b = true

/-- spec/41_arm_commit R155: the only way into `Armed` is a successful arm, by `ARM` or by a command that starts a
measurement, with the interlock satisfied. -/
def Obligations.OnlyArmEntersArmed : Prop :=
  ∀ (i : Instr) (s t : State), exec i s = .next t → s.run.isArmed = false → t.run.isArmed = true →
    brakeNow s = true ∧ ((∃ sel, i = .arm sel) ∨ i = .calRun ∨ i = .calR ∨ i = .calL)

/-- spec/20_memory R84, spec/41_arm_commit R166: with no timer event inside the operation, the outputs become driven by
a `TIM_EVENT` only, with the latch set, and in the same instant as the shadows become active. -/
def Obligations.DrivenOnlyByTimerEvent : Prop :=
  ∀ (i : Instr) (s t : State), s.quiet → exec i s = .next t → ¬ s.driven → t.driven →
    i = .timEvent ∧ s.tim.aoe = true ∧ t.tim.ccrAct = s.tim.ccrSh

/-- R159: after a disarm, through any operations that do not ask for an arm, wherever timer events fall, the phases stay
floating and the latch clear. -/
def Obligations.NoEnableAfterDisarmUntilArm : Prop :=
  ∀ (s : State) (k : Nat) (t : State), s.safeOff → (∀ a ∈ s.agenda, ¬ asksArm a) →
    Host.Core.run Sys2Proof.core k s = .next t → t.safeOff

/-- spec/70_reset_and_hazards R351: a command changes no timestamp, direction, filter, latch of measured currents,
compare register, pending flag or timer direction, and never sets the enable or its latch. -/
def Obligations.CommandsLeaveDatapath : Prop :=
  ∀ (i : Instr) (w : BitVec 48) (s t : State), encode i = .cmd48 w → exec i s = .next t →
    t.run.ts = s.run.ts ∧ t.run.countingDown = s.run.countingDown ∧ t.dcf = s.dcf ∧ t.lat.iMeas = s.lat.iMeas ∧
    t.lat.iLeak = s.lat.iLeak ∧ t.lat.iBus = s.lat.iBus ∧ t.tim.ccrSh = s.tim.ccrSh ∧ t.tim.ccrAct = s.tim.ccrAct ∧
    t.tim.uif = s.tim.uif ∧ t.tim.dir = s.tim.dir ∧ (t.tim.moe = true → s.tim.moe = true) ∧
    (t.tim.aoe = true → s.tim.aoe = true) ∧ t.par = s.par

/-- R33: no operation but the reading of `ERROR` itself depends on the error mask. -/
def Obligations.ErrorMaskDecidesNothing : Prop :=
  ∀ (i : Instr) (s : State) (e : U32), i ≠ .regRd 0x10#8 →
    sameButError (exec i s) (exec i { s with run := { s.run with error := e } })

/-- spec/45_calibration R292: the options 0x0E and 0x0F are stored and read back and nothing else. -/
def Obligations.InertOptions : Prop :=
  ∀ (n : Fin 16) (v : U32) (i : Instr) (s : State), (n = 0x0E ∨ n = 0x0F) →
    (∀ d, i ≠ .cfgWr (BitVec.ofNat 8 n.val) d) → i ≠ .regRd (BitVec.ofNat 8 n.val) →
    exec i (setOption n v s) = mapNext (setOption n v) (exec i s)

/-- spec/00_scope R26: no operation traps, in any state. -/
def Obligations.OperationsNeverTrap : Prop := ∀ (i : Instr) (s : State), ∃ t, exec i s = .next t

/-! The commands (spec/41_arm_commit, spec/44_limits, spec/45_calibration, spec/43_control_law). -/

/-- R104, R168: `NOP` changes nothing and emits nothing; `CLR_ERR` clears the whole mask and nothing else. -/
def Obligations.NopAndClearErr : Prop :=
  ∀ s : State, exec .nop s = .next s ∧ exec .clrErr s = .next { s with run := { s.run with error := 0#32 } }

/-- R157, R158: what `DISARM` from the port does, armed or not. -/
def Obligations.DisarmResult : Prop :=
  ∀ s : State, exec .disarm s = .next
    { s with
      tim := { s.tim with moe := false, aoe := false }
      run := { s.run with law := .none, isArmed := false }
      out := s.out ++ brk s ++ [.cmdResult 0x02#8 (if s.run.isArmed then 1#32 else 0#32)] }

/-- R160, R161, R306: `DISARM_ERR(k)` for each of the thirteen kinds, in every state. -/
def Obligations.DisarmErrRecords : Prop :=
  ∀ (s : State) (k : Nat), k ≤ 12 →
    exec (.disarmErr (BitVec.ofNat 8 k)) s = .next (recorded (BitVec.ofNat 32 (2 ^ k)) s)

/-- R150, R152, R153: an accepted `ARM` attaches and resets the law, emits `EXT_RESET`, arms, and writes nothing else;
from `Disarmed` and from `Armed` alike. R151: a refused one changes no state (only the environment's draw is taken). -/
def Obligations.ArmOutcome : Prop :=
  (∀ s : State, brakeNow s = true →
    exec (.arm 1#8) s = .next
      { brakeRead s with
        run := { s.run with law := .rmeas, isArmed := true }
        rk := { s.rk with v := F32.zero, mod := F32.qnan, i := F32.zero }
        out := s.out ++ [.extReset] } ∧
    exec (.arm 2#8) s = .next
      { brakeRead s with
        run := { s.run with law := .lmeas, isArmed := true }
        lk := { s.lk with attached := false, dI := F32.zero, lastI := F32.zero, t0 := 0#32, t1 := 0#32 }
        out := s.out ++ [.extReset] } ∧
    exec (.arm 3#8) s = .next
      { brakeRead s with
        run := { s.run with law := .ext, isArmed := true }
        out := s.out ++ [.lawResetExt, .extReset] }) ∧
  (∀ (s : State) (sel : U8), brakeNow s = false → (Instr.arm sel).wf = true →
    exec (.arm sel) s = .next (brakeRead s) ∧ { brakeRead s with env := s.env } = s)

/-- R251: `EVAL_LIM` caches and emits the tightest limit. -/
def Obligations.EffectiveLimit : Prop :=
  ∀ s : State, ∃ e : Env, exec .evalLim s = .next
    { s with
      env := e
      lat := { s.lat with iLimEff := limit s }
      out := s.out ++ [.cmdResult 0x05#8 (limit s).toBits] }

/-- R256: `MAX_TORQUE` from the cached limit; `rotor_flux` is read for `Acim` only, once, and that reading is both tested
and multiplied (the model's inference, log 10). -/
def Obligations.MaxTorqueQuery : Prop :=
  ∀ s : State,
    (s.cfg.get 0x00 ≠ 2#32 → exec .maxTorque s = .next
      { s with
        out := s.out ++ [.cmdResult 0x06#8 (F32.min (s.lat.iLimEff.mul (opt 0x03 s)) (opt 0x02 s)).toBits] }) ∧
    (s.cfg.get 0x00 = 2#32 → exec .maxTorque s = .next
      { fluxRead s with
        out := s.out ++ [.cmdResult 0x06#8
          (F32.min (if F32.le (fluxNow s) F32.zero then F32.zero
                    else (s.lat.iLimEff.mul (opt 0x03 s)).mul (fluxNow s)) (opt 0x02 s)).toBits] })

/-- R285: `UPD_GAINS` recomputes the two gains when idle, and is rejected while a calibration runs. -/
def Obligations.GainsUpdate : Prop :=
  ∀ s : State,
    (s.cal.state = .idle → exec .updGains s = .next { s with gain := gainPair s }) ∧
    (s.cal.state ≠ .idle → exec .updGains s = .next (rejected 0x07#8 s))

/-- R271, R272: `CAL_RUN` when idle, for every motor type; it is rejected while a calibration runs. -/
def Obligations.CalRunByMotorType : Prop :=
  ∀ s : State,
    (s.cal.state = .idle →
      (s.cfg.get 0x00 = 0#32 ∨ s.cfg.get 0x00 = 2#32 → exec .calRun s = .next (rStarted true s)) ∧
      (s.cfg.get 0x00 = 1#32 → exec .calRun s = .next
        { s with gain := gainPair s, cal := { s.cal with ok := true }, out := s.out ++ [.cmdResult 0x10#8 1#32] }) ∧
      (3 ≤ (s.cfg.get 0x00).toNat → exec .calRun s = .next
        { s with cal := { s.cal with ok := false }, out := s.out ++ [.cmdResult 0x10#8 0#32] })) ∧
    (s.cal.state ≠ .idle → exec .calRun s = .next (rejected 0x10#8 s))

/-- R273, R274, R278, R279: the two measurements started alone, for any motor type and whether or not the interlock lets
the kernel be armed; both are rejected while a calibration runs. -/
def Obligations.MeasurementsStart : Prop :=
  ∀ s : State,
    (s.cal.state = .idle →
      exec .calR s = .next (rStarted false s) ∧ exec .calL s = .next (lStarted false s)) ∧
    (s.cal.state ≠ .idle →
      exec .calR s = .next (rejected 0x11#8 s) ∧ exec .calL s = .next (rejected 0x12#8 s))

/-- R283: a poll that does not end the loop counts one sleep; a poll when idle does nothing. -/
def Obligations.PollWaits : Prop :=
  ∀ s : State,
    (s.cal.state = .idle → exec .calPoll s = .next s) ∧
    (s.cal.state ≠ .idle → exitReason s = none →
      exec .calPoll s = .next { reqRead s with cal := { s.cal with cnt := s.cal.cnt + 1#32 } })

/-- R276, R282: the end of the resistance measurement, alone or in a sequence, successful or not. -/
def Obligations.FinishResistance : Prop :=
  ∀ (s : State) (r : Nat), s.cal.state = .rWait → exitReason s = some r →
    let v := s.rk.v.div s.rk.target
    let m := measured 0x05 0x00000001#32 0x11#8 r v (polled s)
    exec .calPoll s = .next
      (if s.cal.seq = true then
        (if s.run.isArmed = true ∧ v.isFinite = true then lStarted true m
         else { m with cal := { m.cal with state := .idle, seq := false }, out := m.out ++ [.cmdResult 0x10#8 0#32] })
       else { m with cal := { m.cal with state := .idle } })

/-- R281, R282: the end of the inductance measurement; a successful sequence recomputes the gains. -/
def Obligations.FinishInductance : Prop :=
  ∀ (s : State) (r : Nat), s.cal.state = .lWait → exitReason s = some r →
    let v := inductance s
    let ok := s.run.isArmed && v.isFinite
    let m := measured 0x06 0x00000002#32 0x12#8 r v (polled s)
    exec .calPoll s = .next
      (if s.cal.seq = true then
        { m with
          cal := { m.cal with state := .idle, seq := false }
          gain := if ok then gainPair m else m.gain
          out := m.out ++ [.cmdResult 0x10#8 (if ok then 1#32 else 0#32)] }
       else { m with cal := { m.cal with state := .idle } })

/-- R290: `CFG_WR` stores the value as written when disarmed and idle, and changes no other register; it is rejected for
another register, while armed, and while a calibration runs. -/
def Obligations.CfgWrStores : Prop :=
  (∀ (s : State) (n : Fin 16) (d : U32), s.cal.state = .idle → s.run.isArmed = false →
    exec (.cfgWr (BitVec.ofNat 8 n.val) d) s = .next (setOption n d s) ∧
    (setOption n d s).cfg.get n = d ∧ (∀ m : Fin 16, m ≠ n → (setOption n d s).cfg.get m = s.cfg.get m)) ∧
  (∀ (s : State) (sel : U8) (d : U32), (0x0F < sel.toNat ∨ s.cal.state ≠ .idle ∨ s.run.isArmed = true) →
    exec (.cfgWr sel d) s = .next (rejected 0x20#8 s))

/-- R291, R45, R50, R51, R75: `REG_RD` emits any of the forty-eight registers, in every state, with no side effect;
another number is rejected. -/
def Obligations.RegRdReads : Prop :=
  (∀ (s : State) (n : Nat), n ≤ 0x2F → ∃ v : U32, (registers s)[n]? = some v ∧
    exec (.regRd (BitVec.ofNat 8 n)) s = .next { s with out := s.out ++ [.cmdResult 0x21#8 v] }) ∧
  (∀ (s : State) (sel : U8), 0x2F < sel.toNat → exec (.regRd sel) s = .next (rejected 0x21#8 s))

/-! The timer and the latch arbiter (spec/41_arm_commit). -/

/-- R166: `TIM_EVENT`, all at one instant. -/
def Obligations.TimEventLatches : Prop :=
  ∀ s : State, exec .timEvent s = .next
    { s with
      tim :=
        { s.tim with
          ccrAct := s.tim.ccrSh
          moe := if s.tim.aoe then true else s.tim.moe
          dir := !s.tim.dir
          uif := true } }

/-- R162, R164, R165: `APPLY_PWM` with no event inside it: the shadows take the codes whatever happens, an open
interlock and a pending event each record their kind and disarm, and the latch is set only non-tentatively while armed. -/
def Obligations.ApplyPwmWithoutEvent : Prop :=
  ∀ s : State, s.quiet →
    let down := brakeNow (timRead s) = false
    let late := s.tim.uif = true
    let off := down ∨ late
    ∃ e : Env, exec .applyPwm s = .next
      { s with
        env := e
        run :=
          { s.run with
            error := s.run.error ||| bitIf down 0x20#32 ||| bitIf late 0x40#32
            law := if off then .none else s.run.law
            isArmed := if off then false else s.run.isArmed }
        tim :=
          { s.tim with
            ccrSh := s.opnd.codes
            moe := if off then false else s.tim.moe
            aoe := if off then false else (s.tim.aoe || (!s.opnd.tentative && s.run.isArmed)) }
        out := if off then s.out ++ brk s else s.out }

/-- R163: one event at boundary `k` of an `APPLY_PWM` with the interlock satisfied: what it latches, and how the call
ends. -/
def Obligations.ApplyPwmLateEvent : Prop :=
  ∀ (s : State) (k : Nat), k ≤ 5 → s.env.timEvents = { queued := List.replicate k 0 ++ [1], held := some 0 } →
    s.env.brakeOk = held true → s.tim.uif = false →
    ∃ e : Env, exec .applyPwm s = .next
      { s with
        env := e
        run := { s.run with error := s.run.error ||| 0x40#32, law := .none, isArmed := false }
        tim :=
          { ccrSh := s.opnd.codes, ccrAct := torn k s.opnd.codes s.tim.ccrSh, aoe := false, moe := false,
            uif := true, dir := !s.tim.dir }
        out := s.out ++ brk s }

/-- spec/30_encoding R100: the compare code of a duty in `[0, 1]` is the rounded product truncated; 0, 1 and 0.5 give 0,
`PWM_FULL` and `PWM_FULL div 2`. Outside the domain the operation still completes, the code being free (log 12). -/
def Obligations.DutyToCompareCode : Prop :=
  (∀ s : State, F32.le F32.zero s.opnd.duty = true → F32.le s.opnd.duty F32.one = true →
    ∃ c : U16, exec .duty2ccr s = .next { s with res := .compare c } ∧
      (c.toNat : ℤ) = ⌊value (s.opnd.duty.mul (F32.ofInt (s.par.pwmFull.toNat : Int)))⌋ ∧
      (s.opnd.duty = F32.zero → c = 0#16) ∧ (s.opnd.duty = F32.one → c = s.par.pwmFull) ∧
      (s.opnd.duty = F32.half → c.toNat = s.par.pwmFull.toNat / 2)) ∧
  (∀ s : State, ∃ c : U16, exec .duty2ccr s = .next { s with res := .compare c })

/-! Acquisition and comparators (spec/42_acquisition_filter, spec/44_limits). -/

/-- R182, R183: `SANITIZE` lane by lane; a saturated sensed lane records `CurrentSenseSaturation`. -/
def Obligations.SanitizeCodes : Prop :=
  ∀ s : State,
    let adc := s.opnd.adc
    exec .sanitize s = .next
      { recordedIf (anySaturated s.par adc) 0x80#32 s with
        res := .codes ⟨sanitized s.par 0 adc.a, sanitized s.par 1 adc.b, sanitized s.par 2 adc.c⟩ }

/-- R184, R186, R187: conversion to amperes and reconstruction of a missing phase. -/
def Obligations.ConvertAndInfer : Prop :=
  ∀ s : State,
    exec .adc2amp s = .next { s with res := .amps (amps s.par s.opnd.code) } ∧
    exec .infer s = .next { s with res := .currents (inferred s.par.senseMask s.opnd.amps) }

/-- R190: `DCF_UPDATE`. -/
def Obligations.FilterUpdateResult : Prop :=
  ∀ s : State, exec .dcfUpdate s = .next { s with dcf := filtered s.opnd.amps s }

/-- R192, R194: `DCF_VALID` and `CORRECT`. With a time constant that is not negative the answer is R192's formula, but that
with two or three sensors missing the clock must have advanced; with a positive time constant it is that formula in every
state. The filter is not valid with a negative or NaN time constant (R191), nor after an update with two or three sensors
missing (R187), where R192's formula alone would let a time constant that is not positive through (log 21); nor after
reset, in any launch state (R331; log 21 says which those are), `State.reset` among them (log 5). -/
def Obligations.FilterValidAndCorrect : Prop :=
  (∀ s : State,
    exec .dcfValid s = .next { s with res := .bit (filterValid s) } ∧
    exec .correct s = .next { s with res := .currents (Claims.corrected s s.opnd.amps) } ∧
    (F32.le F32.zero (opt 0x09 s) = true → (¬ blind s.par ∨ F32.lt F32.zero s.dcf.since = true) →
      exec .dcfValid s = .next { s with res := .bit (warmedUp s) }) ∧
    (s.par.sourceLiterals = true → F32.lt F32.zero (opt 0x09 s) = true →
      exec .dcfValid s = .next { s with res := .bit (warmedUp s) }) ∧
    (F32.le F32.zero (opt 0x09 s) = false → exec .dcfValid s = .next { s with res := .bit false })) ∧
  (∀ (p : Params) (l : Launch), p.sourceLiterals = true →
    exec .dcfValid (State.resetWith p l) = .next { State.resetWith p l with res := .bit false }) ∧
  exec .dcfValid State.reset = .next { State.reset with res := .bit false } ∧
  (∀ (s t : State) (adc : Triple U32), blind s.par → t = { s with dcf := filtered (currents s.par adc) s } →
    exec .dcfValid t = .next { t with res := .bit false })

/-- R196, R254, R134: the three comparators, each strict, armed or not. -/
def Obligations.ComparatorsTrip : Prop :=
  ∀ s : State,
    exec .leakChk s = .next (recordedIf (leaks s) 0x100#32 s) ∧
    exec .magChk s = .next (recordedIf (overCurrent s) 0x200#32 s) ∧
    exec .ibusChk s = .next (recordedIf (busTrips s) 0x400#32 s)

/-! The control laws (spec/43_control_law). -/

/-- R220 to R223, R225: the resistance kernel: reset, measurement, request, and the value it reports. -/
def Obligations.ResistanceKernel : Prop :=
  ∀ s : State,
    exec .lawResetR s = .next { s with rk := { s.rk with v := F32.zero, mod := F32.qnan, i := F32.zero } } ∧
    exec .lawMeasR s = .next
      { s with rk := measuredR s.opnd.vbus s.opnd.amps.a s, res := .meas (answerR s.opnd.vbus s.opnd.amps.a s) } ∧
    exec .lawOutR s = .next { s with res := .out (askedR s) } ∧
    exec .getR s = .next { s with out := s.out ++ [.cmdResult 0x30#8 (s.rk.v.div s.rk.target).toBits] }

/-- R228, R229, R231, R233: the inductance kernel: reset, measurement, request, and the value it reports. Operands and
results are in the model's latches (log 7); the request tests and divides by one reading of the bus voltage (the model's
inference, log 10). -/
def Obligations.InductanceKernel : Prop :=
  ∀ s : State,
    exec .lawResetL s = .next
      { s with lk := { s.lk with attached := false, dI := F32.zero, lastI := F32.zero, t0 := 0#32, t1 := 0#32 } } ∧
    exec .lawMeasL s = .next
      { s with
        lk := measuredL s.opnd.vbus s.opnd.amps.a s.opnd.ts s
        res := .meas (answerL s.opnd.vbus s.opnd.amps.a) } ∧
    exec .lawOutL s = .next
      { vbusRead s with lk := flippedL (vbusNow s) s, res := .out (askedL (vbusNow s) s) } ∧
    exec .getL s = .next { s with out := s.out ++ [.cmdResult 0x31#8 (inductance s).toBits] }

/-- R235, R236, R237: the external law's calls are events, its answers the environment's. -/
def Obligations.ExternalLawCalls : Prop :=
  ∀ s : State,
    exec .lawResetX s = .next { s with out := s.out ++ [.lawResetExt] } ∧
    exec .lawMeasX s = .next
      { extMeasRead s with
        out := s.out ++ [.lawMeasExt s.opnd.vbus s.opnd.amps s.opnd.ts], res := .meas (extMeasNow s) } ∧
    exec .lawOutX s = .next
      { extOutRead s with out := s.out ++ [.lawOutExt s.opnd.ts], res := .out (extOutNow s) }

/-- R214: a law's operations change only that law's registers (and the result latch, the draws and, for `EXT`, the
event stream); the instance parameters `r_target` and `r_vmax` are kept. -/
def Obligations.LawOpsOwnRegisters : Prop :=
  ∀ (i : Instr) (s t : State), exec i s = .next t →
    (i ∈ [Instr.lawResetR, .lawMeasR, .lawOutR] →
      t = { s with rk := t.rk, res := t.res } ∧ t.rk.target = s.rk.target ∧ t.rk.vmax = s.rk.vmax) ∧
    (i ∈ [Instr.lawResetL, .lawMeasL, .lawOutL] → t = { s with lk := t.lk, env := t.env, res := t.res }) ∧
    (i ∈ [Instr.lawResetX, .lawMeasX, .lawOutX] → t = { s with out := t.out, env := t.env, res := t.res })

/-! The update cycle (spec/40_update_cycle). -/

/-- R124, R125: a cycle that reads an unchanged direction advances the timestamp, consumes the event, records
`TimerUpdateMissed`, and does nothing else. -/
def Obligations.UpdMissed : Prop :=
  ∀ (s : State) (a b c : U32), s.quiet → s.tim.dir = s.run.countingDown →
    exec (.upd a b c) s = .next { recorded 0x800#32 (begun s) with env := (timRead s).env }

/-- R121, R128 with no law attached: a `SENSE` cycle latches the corrected currents, the leakage and the limit as it is
evaluated after the supervisor's read (R251), and records saturation, leakage and over-current, each whether or not
another fired. When the filter is valid, on which the currents rest, is the model's reading of rules that differ
(log 21). -/
def Obligations.UpdSenseDisarmed : Prop :=
  ∀ (s : State) (a b c : U32), s.sound → s.quiet → s.tim.dir = false → s.run.countingDown = true → s.run.law = .none →
    ∃ t : State, exec (.upd a b c) s = .next t ∧
      t.lat = senseLatches (currents s.par ⟨a, b, c⟩) s ∧
      t.run =
        { s.run with
          ts := s.run.ts + s.par.tUpdTicks
          countingDown := false
          error :=
            s.run.error ||| bitIf (anySaturated s.par ⟨a, b, c⟩) 0x80#32 ||| bitIf (leaks t) 0x100#32 |||
              bitIf (overCurrent t) 0x200#32 } ∧
      t = { s with lat := t.lat, run := t.run, tim := { s.tim with uif := false }, env := t.env }

/-- R128, R135, R305, R318: a `SENSE` cycle with a law attached in which a phase saturates, the supervisor asks for a
disarm, or the leakage or the over-current comparator trips. The block ends disarmed and the law is not fed: no register
of a kernel moves and no event but `BRK_RECOMP` is emitted. The supervisor's disarm records no bit; every fault that
applies records its own, each whether or not another fired; the latches are written as without it. The currents latched
and compared rest on the filter's validity, which is the model's reading of rules that differ (log 21). -/
def Obligations.UpdSenseLawNotFed : Prop :=
  ∀ (s : State) (a b c : U32), s.quiet → s.tim.dir = false → s.run.countingDown = true → s.run.law ≠ .none →
    ∃ t : State, exec (.upd a b c) s = .next t ∧
      t.lat = senseLatches (currents s.par ⟨a, b, c⟩) s ∧
      (anySaturated s.par ⟨a, b, c⟩ ∨ supNow (timRead s) = true ∨ leaks t ∨ overCurrent t →
        t = { s with
              lat := t.lat
              run :=
                { s.run with
                  ts := s.run.ts + s.par.tUpdTicks
                  countingDown := false
                  law := .none
                  isArmed := false
                  error :=
                    s.run.error ||| bitIf (anySaturated s.par ⟨a, b, c⟩) 0x80#32 ||| bitIf (leaks t) 0x100#32 |||
                      bitIf (overCurrent t) 0x200#32 }
              tim := floating { s.tim with uif := false }
              out := s.out ++ brk s
              env := t.env })

/-- R128, R211: in a `SENSE` cycle in which no comparator trips, no phase saturates and the supervisor is silent, the
attached law, whichever it is, is fed the bus voltage `v`, the latched currents and the timestamp: `RMEAS` and `LMEAS`
move their own registers, `EXT` is called by an event and answers `q`. A success leaves the block armed, an error is
raised; nothing else changes. The currents latched and fed rest on the filter's validity, which is the model's reading
of rules that differ (log 21). -/
def Obligations.UpdSenseFeedsLaw : Prop :=
  ∀ (s t : State) (a b c : U32) (v : F32) (q : MeasResult), s.quiet → s.tim.dir = false → s.run.countingDown = true →
    s.run.law ≠ .none → s.run.isArmed = true → s.env.supDisarm = held false → s.env.vbus = held v →
    s.env.extMeas = held q → ¬ anySaturated s.par ⟨a, b, c⟩ →
    exec (.upd a b c) s = .next t → ¬ leaks t → ¬ overCurrent t →
    let i := Claims.corrected s (currents s.par ⟨a, b, c⟩)
    let ts := s.run.ts + s.par.tUpdTicks
    let r := fedAnswer s.run.law q v i.a s
    t = { s with
          lat := senseLatches (currents s.par ⟨a, b, c⟩) s
          run :=
            { s.run with
              ts := ts
              countingDown := false
              error := s.run.error ||| answerBit r
              law := if r = .success then s.run.law else .none
              isArmed := decide (r = .success) }
          tim := if r = .success then { s.tim with uif := false } else floating { s.tim with uif := false }
          rk := if s.run.law = .rmeas then measuredR v i.a s else s.rk
          lk := if s.run.law = .lmeas then measuredL v i.a ts s else s.lk
          out :=
            s.out ++ (if s.run.law = .ext then [.lawMeasExt v i ts] else []) ++
              (if r = .success then [] else [.brkRecomp])
          env := t.env }

/-- R121, R126, R129, R133, R135, the interlock satisfied: a `COMMIT` cycle with no law attached, or in which a phase
saturates and so detaches it, asks no law. It writes the fallback, updates the filter, records a zero bus current, and
records saturation and the bus-current trip. -/
def Obligations.UpdCommitLawNotAsked : Prop :=
  ∀ (s : State) (a b c : U32), s.quiet → s.tim.dir = true → s.run.countingDown = false → s.env.brakeOk = held true →
    ((s.sound ∧ s.run.law = .none) ∨ anySaturated s.par ⟨a, b, c⟩) →
    ∃ t : State, exec (.upd a b c) s = .next t ∧
      t.run =
        { s.run with
          ts := s.run.ts + s.par.tUpdTicks
          countingDown := true
          law := .none
          isArmed := false
          error :=
            s.run.error ||| bitIf (anySaturated s.par ⟨a, b, c⟩) 0x80#32 ||| bitIf (busTrips t) 0x400#32 } ∧
      t = { s with
            run := t.run
            env := t.env
            dcf := filtered (currents s.par ⟨a, b, c⟩) s
            lat := { s.lat with iBus := F32.zero }
            tim := floating { s.tim with uif := false, ccrSh := halves s.par }
            out := s.out ++ brk s }

/-- R129 to R134, R162, R212: a `COMMIT` cycle of an armed block, whichever law is attached, the interlock satisfied and
no phase saturated. The law is asked for the duties two periods ahead: `EXT` by the event `LAW_OUT_EXT` with the
timestamp of the cycle and twice `T_UPD_TICKS`, answering `q`; `RMEAS` and `LMEAS` from their registers, `LMEAS` with the
bus voltage `v` (read once, log 10) and its test voltage changing sign. A valid duty vector is committed and the latch
set; an invalid one is `ControllerFailed`; `ControllerInitializing` is tolerated while the output is not enabled; any
other error is raised. Last the bus current is checked. -/
def Obligations.UpdCommitAsksLaw : Prop :=
  ∀ (s : State) (a b c : U32) (v : F32) (q : OutResult), s.quiet → s.tim.dir = true → s.run.countingDown = false →
    s.run.law ≠ .none → s.run.isArmed = true → s.env.brakeOk = held true → s.env.vbus = held v →
    s.env.extOut = held q → s.par.lookAhead = 2#32 → ¬ anySaturated s.par ⟨a, b, c⟩ →
    let ts := s.run.ts + s.par.tUpdTicks
    let r := askedAnswer s.run.law q v s
    let asked := s.out ++ (if s.run.law = .ext then [.lawOutExt (ts + 2#32 * s.par.tUpdTicks)] else [])
    let run := { s.run with ts := ts, countingDown := true }
    let back := { s.tim with uif := false, ccrSh := halves s.par }
    ∃ u : State, exec (.upd a b c) s = .next (recordedIf (busTrips u) 0x400#32 u) ∧
      u = { s with
            run := u.run
            tim := u.tim
            out := u.out
            env := u.env
            dcf := filtered (currents s.par ⟨a, b, c⟩) s
            lat := { s.lat with iBus := u.lat.iBus }
            lk := if s.run.law = .lmeas then flippedL v s else s.lk } ∧
      (∀ d, r = .duty d → dutyOk d →
        u.run = run ∧ u.tim = { s.tim with uif := false, aoe := true, ccrSh := codes s.par d } ∧
        u.lat.iBus = busSum s d ∧ u.out = asked) ∧
      (∀ d, r = .duty d → ¬ dutyOk d →
        u.run = { run with error := s.run.error ||| 0x10#32, law := .none, isArmed := false } ∧
        u.tim = floating back ∧ u.lat.iBus = F32.zero ∧ u.out = asked ++ [.brkRecomp]) ∧
      (r = .err .controllerInitializing → s.tim.moe = false →
        u.run = run ∧ u.tim = back ∧ u.lat.iBus = F32.zero ∧ u.out = asked) ∧
      (∀ k, r = .err k → (k ≠ .controllerInitializing ∨ s.tim.moe = true) →
        u.run = { run with error := s.run.error ||| kindMask k, law := .none, isArmed := false } ∧
        u.tim = floating back ∧ u.lat.iBus = F32.zero ∧ u.out = asked ++ [.brkRecomp])

/-- spec/20_memory R80, R340, spec/41_arm_commit R163: `m` timer events, one or more, at one place inside a cycle, before
line 3 or at boundary `k` of one of its `APPLY_PWM`s, the interlock satisfied. Before line 3 they can change the direction
the cycle reads. The cycle is then missed; or it is a `SENSE` cycle that goes on, whichever law is attached or none, as it
would had the events come before it, but that the event stays pending (what such a cycle does: UpdSenseDisarmed,
UpdSenseLawNotFed, UpdSenseFeedsLaw; with no law attached it is also said here, the filter's validity being log 21's); or
it is a `COMMIT` cycle whose fallback finds the event. At a boundary they latch what stands in the shadows then, old and
new mixed; the `APPLY_PWM` they fall in records `ControlDeadlineMissed` and disarms, in the tentative call before any law
is asked, in the committing one, whichever law's, after (`LMEAS` reads the bus voltage once: log 10). In every case the
event stays pending for the next cycle. -/
def Obligations.UpdEventInside : Prop :=
  (∀ (s : State) (a b c : U32) (m : Nat), 1 ≤ m → s.env.timEvents = eventsAt 0 m →
    (eventTim^[m] s.tim).dir = s.run.countingDown →
    exec (.upd a b c) s = .next
      { recorded 0x800#32 { begun s with tim := eventTim^[m] s.tim } with env := (timRead s).env }) ∧
  (∀ (s : State) (a b c : U32) (m : Nat), 1 ≤ m → s.env.timEvents = eventsAt 0 m → (eventTim^[m] s.tim).dir = false →
    s.run.countingDown = true →
    exec (.upd a b c) s =
      mapNext (fun t => { t with tim := { t.tim with uif := true } })
        (exec (.upd a b c) { s with tim := eventTim^[m] s.tim, env := { s.env with timEvents := held 0 } })) ∧
  (∀ (s : State) (a b c : U32) (m : Nat), s.sound → 1 ≤ m → s.env.timEvents = eventsAt 0 m →
    (eventTim^[m] s.tim).dir = false → s.run.countingDown = true → s.run.law = .none →
    ∃ t : State, exec (.upd a b c) s = .next t ∧
      t = { s with lat := t.lat, run := t.run, tim := eventTim^[m] s.tim, env := t.env } ∧
      t.lat = senseLatches (currents s.par ⟨a, b, c⟩) s ∧
      t.run =
        { s.run with
          ts := s.run.ts + s.par.tUpdTicks
          countingDown := false
          error :=
            s.run.error ||| bitIf (anySaturated s.par ⟨a, b, c⟩) 0x80#32 ||| bitIf (leaks t) 0x100#32 |||
              bitIf (overCurrent t) 0x200#32 }) ∧
  (∀ (s : State) (a b c : U32) (m : Nat) (act : Triple U16), 1 ≤ m → s.run.countingDown = false →
    s.env.brakeOk = held true →
    ((s.env.timEvents = eventsAt 0 m ∧ (eventTim^[m] s.tim).dir = true ∧ act = s.tim.ccrSh) ∨
     (∃ k : Nat, k ≤ 5 ∧ s.env.timEvents = eventsAt (1 + k) m ∧ s.tim.dir = true ∧
       act = torn k (halves s.par) s.tim.ccrSh)) →
    ∃ t : State, exec (.upd a b c) s = .next t ∧
      t.tim =
        { ccrSh := halves s.par, ccrAct := act, aoe := false, moe := false, uif := true,
          dir := (eventTim^[m] s.tim).dir } ∧
      t.run =
        { s.run with
          ts := s.run.ts + s.par.tUpdTicks
          countingDown := true
          law := .none
          isArmed := false
          error :=
            s.run.error ||| 0x40#32 ||| bitIf (anySaturated s.par ⟨a, b, c⟩) 0x80#32 ||| bitIf (busTrips t) 0x400#32 } ∧
      t = { s with
            tim := t.tim
            run := t.run
            env := t.env
            dcf := filtered (currents s.par ⟨a, b, c⟩) s
            lat := { s.lat with iBus := F32.zero }
            out := s.out ++ brk s }) ∧
  (∀ (s : State) (a b c : U32) (m k : Nat) (v : F32) (q : OutResult) (x : Triple F32), 1 ≤ m → k ≤ 5 →
    s.env.timEvents = eventsAt (7 + k) m → s.tim.dir = true → s.run.countingDown = false → s.env.brakeOk = held true →
    s.run.law ≠ .none → s.run.isArmed = true → s.env.vbus = held v → s.env.extOut = held q →
    askedAnswer s.run.law q v s = .duty x → dutyOk x → ¬ anySaturated s.par ⟨a, b, c⟩ →
    ∃ t : State, exec (.upd a b c) s = .next t ∧
      t.tim =
        { ccrSh := codes s.par x, ccrAct := torn k (codes s.par x) (halves s.par), aoe := false, moe := false,
          uif := true, dir := (eventTim^[m] s.tim).dir } ∧
      t.run =
        { s.run with
          ts := s.run.ts + s.par.tUpdTicks
          countingDown := true
          law := .none
          isArmed := false
          error := s.run.error ||| 0x40#32 ||| bitIf (busTrips t) 0x400#32 } ∧
      t = { s with
            tim := t.tim
            run := t.run
            env := t.env
            dcf := filtered (currents s.par ⟨a, b, c⟩) s
            lat := { s.lat with iBus := F32.zero }
            lk := if s.run.law = .lmeas then flippedL v s else s.lk
            out :=
              s.out ++
                (if s.run.law = .ext then
                  [.lawOutExt (s.run.ts + s.par.tUpdTicks + s.par.lookAhead * s.par.tUpdTicks)]
                 else []) ++ [.brkRecomp] })

/-- R121, R125, R135: every `UPD`, in every state and wherever timer events fall, runs to its end; it advances the
timestamp by one period and leaves the configuration, the gains, the sequencer and the kernels' parameters alone. -/
def Obligations.UpdCompletes : Prop :=
  ∀ (s : State) (a b c : U32), ∃ t : State, exec (.upd a b c) s = .next t ∧
    t.run.ts = s.run.ts + s.par.tUpdTicks ∧ t.par = s.par ∧ t.cfg = s.cfg ∧ t.gain = s.gain ∧ t.cal = s.cal ∧
    t.rk.target = s.rk.target ∧ t.rk.vmax = s.rk.vmax ∧ t.agenda = s.agenda ∧ t.opnd = s.opnd ∧ t.res = s.res

/-- R135: a fault does not end a `COMMIT` cycle: with the interlock open, `BrakeResistorDisarmed` is recorded and the
cycle goes on to record saturation and the bus-current trip, update the filter and write the fallback. -/
def Obligations.CommitRecordsEveryFault : Prop :=
  ∀ (s : State) (a b c : U32), s.quiet → s.tim.dir = true → s.run.countingDown = false → s.env.brakeOk = held false →
    ∃ t : State, exec (.upd a b c) s = .next t ∧
      t.run.error =
        s.run.error ||| 0x20#32 ||| bitIf (anySaturated s.par ⟨a, b, c⟩) 0x80#32 ||| bitIf (busTrips t) 0x400#32 ∧
      t.safeOff ∧ t.tim.ccrSh = ⟨s.par.half, s.par.half, s.par.half⟩ ∧
      t.dcf = filtered (currents s.par ⟨a, b, c⟩) s ∧ t.lat.iBus = F32.zero ∧ t.out = s.out ++ brk s

/-- R122, R341: `n` timer events before one event word, with no law or a built-in kernel attached. With no event at all
pending no cycle starts (R120; log 9). After an even number, or when an earlier event is all that is pending, the cycle
records `TimerUpdateMissed` and keeps `S.counting_down`; after an odd number it does not record it and takes the
direction read. -/
def Obligations.FoldedEventsByParity : Prop :=
  ∀ (s : State) (n : Nat) (w : BitVec 96) (o : Operands), s.quiet → s.run.error = 0#32 →
    s.tim.dir = s.run.countingDown → s.run.law ≠ .ext →
    s.agenda = List.replicate n (.uop8 0x80#8 o) ++ [.upd96 w] →
    ∃ t : State, Host.Core.run Sys2Proof.core (n + 1) s = .next t ∧
      (n = 0 → s.tim.uif = false → t = { s with agenda := [], owed := false }) ∧
      (n % 2 = 0 → (0 < n ∨ s.tim.uif = true) → t.run.error = 0x800#32 ∧ t.run.countingDown = s.run.countingDown) ∧
      (n % 2 = 1 → t.run.error &&& 0x800#32 = 0#32 ∧ t.run.countingDown = !s.run.countingDown)

/-- R283, R284: polls alone end any calibration: after as many polls as the ceilings allow, no event being pending (its
cycle would go first, log 9), the sequencer is idle, whatever was measured. -/
def Obligations.CalibrationEndsWithinCeilings : Prop :=
  ∀ (s : State) (n : Nat), s.calSound → s.cal.state ≠ .idle → s.tim.uif = false →
    s.agenda = List.replicate n (.cmd48 0x130000000000#48) →
    (s.par.rCalPolls.toNat + 1) + (s.par.lCalPolls.toNat + 1) ≤ n →
    ∃ t : State, Host.Core.run Sys2Proof.core n s = .next t ∧ t.cal.state = .idle ∧ t.cal.seq = false
end

