-- ==== Sys2Proof/Laws/Decode.lean ====
section
/-!
SUPPORT. The fields of a command word built from its fields, and the opcode table's rows as data.
-/

namespace Sys2Proof

/-- A command word as a number (spec/30_encoding R95). -/
theorem cmdWord_toNat (op sel : U8) (data : U32) :
    (op ++ sel ++ data).toNat = (op.toNat * 2 ^ 8 + sel.toNat) * 2 ^ 32 + data.toNat := by
  rw [BitVec.toNat_append, BitVec.toNat_append, ← Nat.shiftLeft_add_eq_or_of_lt sel.isLt,
    ← Nat.shiftLeft_add_eq_or_of_lt data.isLt, Nat.shiftLeft_eq, Nat.shiftLeft_eq]

theorem cmdOp_append (op sel : U8) (data : U32) : cmdOp (op ++ sel ++ data) = op := by
  apply BitVec.eq_of_toNat_eq
  rw [cmdOp, BitVec.extractLsb'_toNat, cmdWord_toNat, Nat.shiftRight_eq_div_pow]
  have h1 := op.isLt
  have h2 := sel.isLt
  have h3 := data.isLt
  omega

theorem cmdSel_append (op sel : U8) (data : U32) : cmdSel (op ++ sel ++ data) = sel := by
  apply BitVec.eq_of_toNat_eq
  rw [cmdSel, BitVec.extractLsb'_toNat, cmdWord_toNat, Nat.shiftRight_eq_div_pow]
  have h1 := op.isLt
  have h2 := sel.isLt
  have h3 := data.isLt
  omega

theorem cmdData_append (op sel : U8) (data : U32) : cmdData (op ++ sel ++ data) = data := by
  apply BitVec.eq_of_toNat_eq
  rw [cmdData, BitVec.extractLsb'_toNat, cmdWord_toNat, Nat.shiftRight_eq_div_pow]
  have h1 := op.isLt
  have h2 := sel.isLt
  have h3 := data.isLt
  omega

/-- A row of spec/opcode_table.json: the width of the word, and its code (`op`, or the `UOP8` code); `UPD` has none. -/
def tableRow : Instr → Nat × Option U8
  | .nop => (48, some 0x00#8)
  | .arm _ => (48, some 0x01#8)
  | .disarm => (48, some 0x02#8)
  | .disarmErr _ => (48, some 0x03#8)
  | .clrErr => (48, some 0x04#8)
  | .evalLim => (48, some 0x05#8)
  | .maxTorque => (48, some 0x06#8)
  | .updGains => (48, some 0x07#8)
  | .calRun => (48, some 0x10#8)
  | .calR => (48, some 0x11#8)
  | .calL => (48, some 0x12#8)
  | .calPoll => (48, some 0x13#8)
  | .cfgWr _ _ => (48, some 0x20#8)
  | .regRd _ => (48, some 0x21#8)
  | .getR => (48, some 0x30#8)
  | .getL => (48, some 0x31#8)
  | .upd _ _ _ => (96, none)
  | .timEvent => (8, some 0x80#8)
  | .applyPwm => (8, some 0x90#8)
  | .sanitize => (8, some 0x91#8)
  | .adc2amp => (8, some 0x92#8)
  | .infer => (8, some 0x93#8)
  | .dcfUpdate => (8, some 0x94#8)
  | .dcfValid => (8, some 0x95#8)
  | .correct => (8, some 0x96#8)
  | .leakChk => (8, some 0x97#8)
  | .magChk => (8, some 0x98#8)
  | .ibusChk => (8, some 0x99#8)
  | .duty2ccr => (8, some 0x9A#8)
  | .lawResetR => (8, some 0xA0#8)
  | .lawMeasR => (8, some 0xA1#8)
  | .lawOutR => (8, some 0xA2#8)
  | .lawResetL => (8, some 0xA4#8)
  | .lawMeasL => (8, some 0xA5#8)
  | .lawOutL => (8, some 0xA6#8)
  | .lawResetX => (8, some 0xA8#8)
  | .lawMeasX => (8, some 0xA9#8)
  | .lawOutX => (8, some 0xAA#8)

/-- Width and code of a word. -/
def wordRow : PortWord → Nat × Option U8
  | .upd96 _ => (96, none)
  | .cmd48 w => (48, some (cmdOp w))
  | .uop8 c => (8, some c)

end Sys2Proof
end

