-- ==== Sys2Proof/Laws/State.lean ====
section
/-!
SUPPORT. One lemma per field per primitive update of State: what the field is after the update.
-/

namespace Sys2Proof.Machine

@[simp] theorem emit_par (e : Event) (s : State) : (emit e s).par = s.par := rfl
@[simp] theorem emit_run (e : Event) (s : State) : (emit e s).run = s.run := rfl
@[simp] theorem emit_dcf (e : Event) (s : State) : (emit e s).dcf = s.dcf := rfl
@[simp] theorem emit_lat (e : Event) (s : State) : (emit e s).lat = s.lat := rfl
@[simp] theorem emit_rk (e : Event) (s : State) : (emit e s).rk = s.rk := rfl
@[simp] theorem emit_lk (e : Event) (s : State) : (emit e s).lk = s.lk := rfl
@[simp] theorem emit_gain (e : Event) (s : State) : (emit e s).gain = s.gain := rfl
@[simp] theorem emit_cfg (e : Event) (s : State) : (emit e s).cfg = s.cfg := rfl
@[simp] theorem emit_cal (e : Event) (s : State) : (emit e s).cal = s.cal := rfl
@[simp] theorem emit_tim (e : Event) (s : State) : (emit e s).tim = s.tim := rfl
@[simp] theorem emit_out (e : Event) (s : State) : (emit e s).out = s.out ++ [e] := rfl
@[simp] theorem emit_agenda (e : Event) (s : State) : (emit e s).agenda = s.agenda := rfl
@[simp] theorem emit_env (e : Event) (s : State) : (emit e s).env = s.env := rfl
@[simp] theorem emit_opnd (e : Event) (s : State) : (emit e s).opnd = s.opnd := rfl
@[simp] theorem emit_res (e : Event) (s : State) : (emit e s).res = s.res := rfl
@[simp] theorem emit_owed (e : Event) (s : State) : (emit e s).owed = s.owed := rfl

@[simp] theorem reject_par (op : U8) (s : State) : (reject op s).par = s.par := rfl
@[simp] theorem reject_run (op : U8) (s : State) : (reject op s).run = s.run := rfl
@[simp] theorem reject_dcf (op : U8) (s : State) : (reject op s).dcf = s.dcf := rfl
@[simp] theorem reject_lat (op : U8) (s : State) : (reject op s).lat = s.lat := rfl
@[simp] theorem reject_rk (op : U8) (s : State) : (reject op s).rk = s.rk := rfl
@[simp] theorem reject_lk (op : U8) (s : State) : (reject op s).lk = s.lk := rfl
@[simp] theorem reject_gain (op : U8) (s : State) : (reject op s).gain = s.gain := rfl
@[simp] theorem reject_cfg (op : U8) (s : State) : (reject op s).cfg = s.cfg := rfl
@[simp] theorem reject_cal (op : U8) (s : State) : (reject op s).cal = s.cal := rfl
@[simp] theorem reject_tim (op : U8) (s : State) : (reject op s).tim = s.tim := rfl
@[simp] theorem reject_out (op : U8) (s : State) : (reject op s).out = s.out ++ [.cmdReject op] := rfl
@[simp] theorem reject_agenda (op : U8) (s : State) : (reject op s).agenda = s.agenda := rfl
@[simp] theorem reject_env (op : U8) (s : State) : (reject op s).env = s.env := rfl
@[simp] theorem reject_opnd (op : U8) (s : State) : (reject op s).opnd = s.opnd := rfl
@[simp] theorem reject_res (op : U8) (s : State) : (reject op s).res = s.res := rfl
@[simp] theorem reject_owed (op : U8) (s : State) : (reject op s).owed = s.owed := rfl

@[simp] theorem vbusRead_par (s : State) : (vbusRead s).par = s.par := rfl
@[simp] theorem vbusRead_run (s : State) : (vbusRead s).run = s.run := rfl
@[simp] theorem vbusRead_dcf (s : State) : (vbusRead s).dcf = s.dcf := rfl
@[simp] theorem vbusRead_lat (s : State) : (vbusRead s).lat = s.lat := rfl
@[simp] theorem vbusRead_rk (s : State) : (vbusRead s).rk = s.rk := rfl
@[simp] theorem vbusRead_lk (s : State) : (vbusRead s).lk = s.lk := rfl
@[simp] theorem vbusRead_gain (s : State) : (vbusRead s).gain = s.gain := rfl
@[simp] theorem vbusRead_cfg (s : State) : (vbusRead s).cfg = s.cfg := rfl
@[simp] theorem vbusRead_cal (s : State) : (vbusRead s).cal = s.cal := rfl
@[simp] theorem vbusRead_tim (s : State) : (vbusRead s).tim = s.tim := rfl
@[simp] theorem vbusRead_out (s : State) : (vbusRead s).out = s.out := rfl
@[simp] theorem vbusRead_agenda (s : State) : (vbusRead s).agenda = s.agenda := rfl
@[simp] theorem vbusRead_env (s : State) : (vbusRead s).env = { s.env with vbus := s.env.vbus.next, drawn := s.env.drawn + 1 } := rfl
@[simp] theorem vbusRead_opnd (s : State) : (vbusRead s).opnd = s.opnd := rfl
@[simp] theorem vbusRead_res (s : State) : (vbusRead s).res = s.res := rfl
@[simp] theorem vbusRead_owed (s : State) : (vbusRead s).owed = s.owed := rfl

@[simp] theorem brakeRead_par (s : State) : (brakeRead s).par = s.par := rfl
@[simp] theorem brakeRead_run (s : State) : (brakeRead s).run = s.run := rfl
@[simp] theorem brakeRead_dcf (s : State) : (brakeRead s).dcf = s.dcf := rfl
@[simp] theorem brakeRead_lat (s : State) : (brakeRead s).lat = s.lat := rfl
@[simp] theorem brakeRead_rk (s : State) : (brakeRead s).rk = s.rk := rfl
@[simp] theorem brakeRead_lk (s : State) : (brakeRead s).lk = s.lk := rfl
@[simp] theorem brakeRead_gain (s : State) : (brakeRead s).gain = s.gain := rfl
@[simp] theorem brakeRead_cfg (s : State) : (brakeRead s).cfg = s.cfg := rfl
@[simp] theorem brakeRead_cal (s : State) : (brakeRead s).cal = s.cal := rfl
@[simp] theorem brakeRead_tim (s : State) : (brakeRead s).tim = s.tim := rfl
@[simp] theorem brakeRead_out (s : State) : (brakeRead s).out = s.out := rfl
@[simp] theorem brakeRead_agenda (s : State) : (brakeRead s).agenda = s.agenda := rfl
@[simp] theorem brakeRead_env (s : State) : (brakeRead s).env = { s.env with brakeOk := s.env.brakeOk.next, drawn := s.env.drawn + 1 } := rfl
@[simp] theorem brakeRead_opnd (s : State) : (brakeRead s).opnd = s.opnd := rfl
@[simp] theorem brakeRead_res (s : State) : (brakeRead s).res = s.res := rfl
@[simp] theorem brakeRead_owed (s : State) : (brakeRead s).owed = s.owed := rfl

@[simp] theorem supRead_par (s : State) : (supRead s).par = s.par := rfl
@[simp] theorem supRead_run (s : State) : (supRead s).run = s.run := rfl
@[simp] theorem supRead_dcf (s : State) : (supRead s).dcf = s.dcf := rfl
@[simp] theorem supRead_lat (s : State) : (supRead s).lat = s.lat := rfl
@[simp] theorem supRead_rk (s : State) : (supRead s).rk = s.rk := rfl
@[simp] theorem supRead_lk (s : State) : (supRead s).lk = s.lk := rfl
@[simp] theorem supRead_gain (s : State) : (supRead s).gain = s.gain := rfl
@[simp] theorem supRead_cfg (s : State) : (supRead s).cfg = s.cfg := rfl
@[simp] theorem supRead_cal (s : State) : (supRead s).cal = s.cal := rfl
@[simp] theorem supRead_tim (s : State) : (supRead s).tim = s.tim := rfl
@[simp] theorem supRead_out (s : State) : (supRead s).out = s.out := rfl
@[simp] theorem supRead_agenda (s : State) : (supRead s).agenda = s.agenda := rfl
@[simp] theorem supRead_env (s : State) : (supRead s).env = { s.env with supDisarm := s.env.supDisarm.next, drawn := s.env.drawn + 1 } := rfl
@[simp] theorem supRead_opnd (s : State) : (supRead s).opnd = s.opnd := rfl
@[simp] theorem supRead_res (s : State) : (supRead s).res = s.res := rfl
@[simp] theorem supRead_owed (s : State) : (supRead s).owed = s.owed := rfl

@[simp] theorem fluxRead_par (s : State) : (fluxRead s).par = s.par := rfl
@[simp] theorem fluxRead_run (s : State) : (fluxRead s).run = s.run := rfl
@[simp] theorem fluxRead_dcf (s : State) : (fluxRead s).dcf = s.dcf := rfl
@[simp] theorem fluxRead_lat (s : State) : (fluxRead s).lat = s.lat := rfl
@[simp] theorem fluxRead_rk (s : State) : (fluxRead s).rk = s.rk := rfl
@[simp] theorem fluxRead_lk (s : State) : (fluxRead s).lk = s.lk := rfl
@[simp] theorem fluxRead_gain (s : State) : (fluxRead s).gain = s.gain := rfl
@[simp] theorem fluxRead_cfg (s : State) : (fluxRead s).cfg = s.cfg := rfl
@[simp] theorem fluxRead_cal (s : State) : (fluxRead s).cal = s.cal := rfl
@[simp] theorem fluxRead_tim (s : State) : (fluxRead s).tim = s.tim := rfl
@[simp] theorem fluxRead_out (s : State) : (fluxRead s).out = s.out := rfl
@[simp] theorem fluxRead_agenda (s : State) : (fluxRead s).agenda = s.agenda := rfl
@[simp] theorem fluxRead_env (s : State) : (fluxRead s).env = { s.env with rotorFlux := s.env.rotorFlux.next, drawn := s.env.drawn + 1 } := rfl
@[simp] theorem fluxRead_opnd (s : State) : (fluxRead s).opnd = s.opnd := rfl
@[simp] theorem fluxRead_res (s : State) : (fluxRead s).res = s.res := rfl
@[simp] theorem fluxRead_owed (s : State) : (fluxRead s).owed = s.owed := rfl

@[simp] theorem reqRead_par (s : State) : (reqRead s).par = s.par := rfl
@[simp] theorem reqRead_run (s : State) : (reqRead s).run = s.run := rfl
@[simp] theorem reqRead_dcf (s : State) : (reqRead s).dcf = s.dcf := rfl
@[simp] theorem reqRead_lat (s : State) : (reqRead s).lat = s.lat := rfl
@[simp] theorem reqRead_rk (s : State) : (reqRead s).rk = s.rk := rfl
@[simp] theorem reqRead_lk (s : State) : (reqRead s).lk = s.lk := rfl
@[simp] theorem reqRead_gain (s : State) : (reqRead s).gain = s.gain := rfl
@[simp] theorem reqRead_cfg (s : State) : (reqRead s).cfg = s.cfg := rfl
@[simp] theorem reqRead_cal (s : State) : (reqRead s).cal = s.cal := rfl
@[simp] theorem reqRead_tim (s : State) : (reqRead s).tim = s.tim := rfl
@[simp] theorem reqRead_out (s : State) : (reqRead s).out = s.out := rfl
@[simp] theorem reqRead_agenda (s : State) : (reqRead s).agenda = s.agenda := rfl
@[simp] theorem reqRead_env (s : State) : (reqRead s).env = { s.env with reqChanged := s.env.reqChanged.next, drawn := s.env.drawn + 1 } := rfl
@[simp] theorem reqRead_opnd (s : State) : (reqRead s).opnd = s.opnd := rfl
@[simp] theorem reqRead_res (s : State) : (reqRead s).res = s.res := rfl
@[simp] theorem reqRead_owed (s : State) : (reqRead s).owed = s.owed := rfl

@[simp] theorem limRead_par (i : Nat) (s : State) : (limRead i s).par = s.par := rfl
@[simp] theorem limRead_run (i : Nat) (s : State) : (limRead i s).run = s.run := rfl
@[simp] theorem limRead_dcf (i : Nat) (s : State) : (limRead i s).dcf = s.dcf := rfl
@[simp] theorem limRead_lat (i : Nat) (s : State) : (limRead i s).lat = s.lat := rfl
@[simp] theorem limRead_rk (i : Nat) (s : State) : (limRead i s).rk = s.rk := rfl
@[simp] theorem limRead_lk (i : Nat) (s : State) : (limRead i s).lk = s.lk := rfl
@[simp] theorem limRead_gain (i : Nat) (s : State) : (limRead i s).gain = s.gain := rfl
@[simp] theorem limRead_cfg (i : Nat) (s : State) : (limRead i s).cfg = s.cfg := rfl
@[simp] theorem limRead_cal (i : Nat) (s : State) : (limRead i s).cal = s.cal := rfl
@[simp] theorem limRead_tim (i : Nat) (s : State) : (limRead i s).tim = s.tim := rfl
@[simp] theorem limRead_out (i : Nat) (s : State) : (limRead i s).out = s.out := rfl
@[simp] theorem limRead_agenda (i : Nat) (s : State) : (limRead i s).agenda = s.agenda := rfl
@[simp] theorem limRead_env (i : Nat) (s : State) : (limRead i s).env = { s.env with limExt := s.env.limExt.set i (limWire i s).next, drawn := s.env.drawn + 1 } := rfl
@[simp] theorem limRead_opnd (i : Nat) (s : State) : (limRead i s).opnd = s.opnd := rfl
@[simp] theorem limRead_res (i : Nat) (s : State) : (limRead i s).res = s.res := rfl
@[simp] theorem limRead_owed (i : Nat) (s : State) : (limRead i s).owed = s.owed := rfl

@[simp] theorem timRead_par (s : State) : (timRead s).par = s.par := rfl
@[simp] theorem timRead_run (s : State) : (timRead s).run = s.run := rfl
@[simp] theorem timRead_dcf (s : State) : (timRead s).dcf = s.dcf := rfl
@[simp] theorem timRead_lat (s : State) : (timRead s).lat = s.lat := rfl
@[simp] theorem timRead_rk (s : State) : (timRead s).rk = s.rk := rfl
@[simp] theorem timRead_lk (s : State) : (timRead s).lk = s.lk := rfl
@[simp] theorem timRead_gain (s : State) : (timRead s).gain = s.gain := rfl
@[simp] theorem timRead_cfg (s : State) : (timRead s).cfg = s.cfg := rfl
@[simp] theorem timRead_cal (s : State) : (timRead s).cal = s.cal := rfl
@[simp] theorem timRead_tim (s : State) : (timRead s).tim = s.tim := rfl
@[simp] theorem timRead_out (s : State) : (timRead s).out = s.out := rfl
@[simp] theorem timRead_agenda (s : State) : (timRead s).agenda = s.agenda := rfl
@[simp] theorem timRead_env (s : State) : (timRead s).env = { s.env with timEvents := s.env.timEvents.next, drawn := s.env.drawn + 1 } := rfl
@[simp] theorem timRead_opnd (s : State) : (timRead s).opnd = s.opnd := rfl
@[simp] theorem timRead_res (s : State) : (timRead s).res = s.res := rfl
@[simp] theorem timRead_owed (s : State) : (timRead s).owed = s.owed := rfl

@[simp] theorem eventWordRead_par (s : State) : (eventWordRead s).par = s.par := rfl
@[simp] theorem eventWordRead_run (s : State) : (eventWordRead s).run = s.run := rfl
@[simp] theorem eventWordRead_dcf (s : State) : (eventWordRead s).dcf = s.dcf := rfl
@[simp] theorem eventWordRead_lat (s : State) : (eventWordRead s).lat = s.lat := rfl
@[simp] theorem eventWordRead_rk (s : State) : (eventWordRead s).rk = s.rk := rfl
@[simp] theorem eventWordRead_lk (s : State) : (eventWordRead s).lk = s.lk := rfl
@[simp] theorem eventWordRead_gain (s : State) : (eventWordRead s).gain = s.gain := rfl
@[simp] theorem eventWordRead_cfg (s : State) : (eventWordRead s).cfg = s.cfg := rfl
@[simp] theorem eventWordRead_cal (s : State) : (eventWordRead s).cal = s.cal := rfl
@[simp] theorem eventWordRead_tim (s : State) : (eventWordRead s).tim = s.tim := rfl
@[simp] theorem eventWordRead_out (s : State) : (eventWordRead s).out = s.out := rfl
@[simp] theorem eventWordRead_agenda (s : State) : (eventWordRead s).agenda = s.agenda := rfl
@[simp] theorem eventWordRead_env (s : State) : (eventWordRead s).env = { s.env with eventWord := s.env.eventWord.next, drawn := s.env.drawn + 1 } := rfl
@[simp] theorem eventWordRead_opnd (s : State) : (eventWordRead s).opnd = s.opnd := rfl
@[simp] theorem eventWordRead_res (s : State) : (eventWordRead s).res = s.res := rfl
@[simp] theorem eventWordRead_owed (s : State) : (eventWordRead s).owed = s.owed := rfl

@[simp] theorem extMeasRead_par (s : State) : (extMeasRead s).par = s.par := rfl
@[simp] theorem extMeasRead_run (s : State) : (extMeasRead s).run = s.run := rfl
@[simp] theorem extMeasRead_dcf (s : State) : (extMeasRead s).dcf = s.dcf := rfl
@[simp] theorem extMeasRead_lat (s : State) : (extMeasRead s).lat = s.lat := rfl
@[simp] theorem extMeasRead_rk (s : State) : (extMeasRead s).rk = s.rk := rfl
@[simp] theorem extMeasRead_lk (s : State) : (extMeasRead s).lk = s.lk := rfl
@[simp] theorem extMeasRead_gain (s : State) : (extMeasRead s).gain = s.gain := rfl
@[simp] theorem extMeasRead_cfg (s : State) : (extMeasRead s).cfg = s.cfg := rfl
@[simp] theorem extMeasRead_cal (s : State) : (extMeasRead s).cal = s.cal := rfl
@[simp] theorem extMeasRead_tim (s : State) : (extMeasRead s).tim = s.tim := rfl
@[simp] theorem extMeasRead_out (s : State) : (extMeasRead s).out = s.out := rfl
@[simp] theorem extMeasRead_agenda (s : State) : (extMeasRead s).agenda = s.agenda := rfl
@[simp] theorem extMeasRead_env (s : State) : (extMeasRead s).env = { s.env with extMeas := s.env.extMeas.next, drawn := s.env.drawn + 1 } := rfl
@[simp] theorem extMeasRead_opnd (s : State) : (extMeasRead s).opnd = s.opnd := rfl
@[simp] theorem extMeasRead_res (s : State) : (extMeasRead s).res = s.res := rfl
@[simp] theorem extMeasRead_owed (s : State) : (extMeasRead s).owed = s.owed := rfl

@[simp] theorem extOutRead_par (s : State) : (extOutRead s).par = s.par := rfl
@[simp] theorem extOutRead_run (s : State) : (extOutRead s).run = s.run := rfl
@[simp] theorem extOutRead_dcf (s : State) : (extOutRead s).dcf = s.dcf := rfl
@[simp] theorem extOutRead_lat (s : State) : (extOutRead s).lat = s.lat := rfl
@[simp] theorem extOutRead_rk (s : State) : (extOutRead s).rk = s.rk := rfl
@[simp] theorem extOutRead_lk (s : State) : (extOutRead s).lk = s.lk := rfl
@[simp] theorem extOutRead_gain (s : State) : (extOutRead s).gain = s.gain := rfl
@[simp] theorem extOutRead_cfg (s : State) : (extOutRead s).cfg = s.cfg := rfl
@[simp] theorem extOutRead_cal (s : State) : (extOutRead s).cal = s.cal := rfl
@[simp] theorem extOutRead_tim (s : State) : (extOutRead s).tim = s.tim := rfl
@[simp] theorem extOutRead_out (s : State) : (extOutRead s).out = s.out := rfl
@[simp] theorem extOutRead_agenda (s : State) : (extOutRead s).agenda = s.agenda := rfl
@[simp] theorem extOutRead_env (s : State) : (extOutRead s).env = { s.env with extOut := s.env.extOut.next, drawn := s.env.drawn + 1 } := rfl
@[simp] theorem extOutRead_opnd (s : State) : (extOutRead s).opnd = s.opnd := rfl
@[simp] theorem extOutRead_res (s : State) : (extOutRead s).res = s.res := rfl
@[simp] theorem extOutRead_owed (s : State) : (extOutRead s).owed = s.owed := rfl

@[simp] theorem disarm_par (s : State) : (disarm s).par = s.par := rfl
@[simp] theorem disarm_run (s : State) : (disarm s).run = { s.run with law := .none, isArmed := false } := rfl
@[simp] theorem disarm_dcf (s : State) : (disarm s).dcf = s.dcf := rfl
@[simp] theorem disarm_lat (s : State) : (disarm s).lat = s.lat := rfl
@[simp] theorem disarm_rk (s : State) : (disarm s).rk = s.rk := rfl
@[simp] theorem disarm_lk (s : State) : (disarm s).lk = s.lk := rfl
@[simp] theorem disarm_gain (s : State) : (disarm s).gain = s.gain := rfl
@[simp] theorem disarm_cfg (s : State) : (disarm s).cfg = s.cfg := rfl
@[simp] theorem disarm_cal (s : State) : (disarm s).cal = s.cal := rfl
@[simp] theorem disarm_tim (s : State) : (disarm s).tim = { s.tim with moe := false, aoe := false } := rfl
@[simp] theorem disarm_out (s : State) : (disarm s).out = if s.run.isArmed then s.out ++ [.brkRecomp] else s.out := rfl
@[simp] theorem disarm_agenda (s : State) : (disarm s).agenda = s.agenda := rfl
@[simp] theorem disarm_env (s : State) : (disarm s).env = s.env := rfl
@[simp] theorem disarm_opnd (s : State) : (disarm s).opnd = s.opnd := rfl
@[simp] theorem disarm_res (s : State) : (disarm s).res = s.res := rfl
@[simp] theorem disarm_owed (s : State) : (disarm s).owed = s.owed := rfl

@[simp] theorem raise_par (k : ErrorKind) (s : State) : (raise k s).par = s.par := rfl
@[simp] theorem raise_run (k : ErrorKind) (s : State) : (raise k s).run = { s.run with law := .none, isArmed := false, error := s.run.error ||| kindMask k } := rfl
@[simp] theorem raise_dcf (k : ErrorKind) (s : State) : (raise k s).dcf = s.dcf := rfl
@[simp] theorem raise_lat (k : ErrorKind) (s : State) : (raise k s).lat = s.lat := rfl
@[simp] theorem raise_rk (k : ErrorKind) (s : State) : (raise k s).rk = s.rk := rfl
@[simp] theorem raise_lk (k : ErrorKind) (s : State) : (raise k s).lk = s.lk := rfl
@[simp] theorem raise_gain (k : ErrorKind) (s : State) : (raise k s).gain = s.gain := rfl
@[simp] theorem raise_cfg (k : ErrorKind) (s : State) : (raise k s).cfg = s.cfg := rfl
@[simp] theorem raise_cal (k : ErrorKind) (s : State) : (raise k s).cal = s.cal := rfl
@[simp] theorem raise_tim (k : ErrorKind) (s : State) : (raise k s).tim = { s.tim with moe := false, aoe := false } := rfl
@[simp] theorem raise_out (k : ErrorKind) (s : State) : (raise k s).out = if s.run.isArmed then s.out ++ [.brkRecomp] else s.out := rfl
@[simp] theorem raise_agenda (k : ErrorKind) (s : State) : (raise k s).agenda = s.agenda := rfl
@[simp] theorem raise_env (k : ErrorKind) (s : State) : (raise k s).env = s.env := rfl
@[simp] theorem raise_opnd (k : ErrorKind) (s : State) : (raise k s).opnd = s.opnd := rfl
@[simp] theorem raise_res (k : ErrorKind) (s : State) : (raise k s).res = s.res := rfl
@[simp] theorem raise_owed (k : ErrorKind) (s : State) : (raise k s).owed = s.owed := rfl

@[simp] theorem timEvent_par (s : State) : (timEvent s).par = s.par := rfl
@[simp] theorem timEvent_run (s : State) : (timEvent s).run = s.run := rfl
@[simp] theorem timEvent_dcf (s : State) : (timEvent s).dcf = s.dcf := rfl
@[simp] theorem timEvent_lat (s : State) : (timEvent s).lat = s.lat := rfl
@[simp] theorem timEvent_rk (s : State) : (timEvent s).rk = s.rk := rfl
@[simp] theorem timEvent_lk (s : State) : (timEvent s).lk = s.lk := rfl
@[simp] theorem timEvent_gain (s : State) : (timEvent s).gain = s.gain := rfl
@[simp] theorem timEvent_cfg (s : State) : (timEvent s).cfg = s.cfg := rfl
@[simp] theorem timEvent_cal (s : State) : (timEvent s).cal = s.cal := rfl
@[simp] theorem timEvent_tim (s : State) : (timEvent s).tim = { s.tim with ccrAct := s.tim.ccrSh, moe := s.tim.moe || s.tim.aoe, dir := !s.tim.dir, uif := true } := rfl
@[simp] theorem timEvent_out (s : State) : (timEvent s).out = s.out := rfl
@[simp] theorem timEvent_agenda (s : State) : (timEvent s).agenda = s.agenda := rfl
@[simp] theorem timEvent_env (s : State) : (timEvent s).env = s.env := rfl
@[simp] theorem timEvent_opnd (s : State) : (timEvent s).opnd = s.opnd := rfl
@[simp] theorem timEvent_res (s : State) : (timEvent s).res = s.res := rfl
@[simp] theorem timEvent_owed (s : State) : (timEvent s).owed = s.owed := rfl

@[simp] theorem writeShA_par (c : U16) (s : State) : (writeShA c s).par = s.par := rfl
@[simp] theorem writeShA_run (c : U16) (s : State) : (writeShA c s).run = s.run := rfl
@[simp] theorem writeShA_dcf (c : U16) (s : State) : (writeShA c s).dcf = s.dcf := rfl
@[simp] theorem writeShA_lat (c : U16) (s : State) : (writeShA c s).lat = s.lat := rfl
@[simp] theorem writeShA_rk (c : U16) (s : State) : (writeShA c s).rk = s.rk := rfl
@[simp] theorem writeShA_lk (c : U16) (s : State) : (writeShA c s).lk = s.lk := rfl
@[simp] theorem writeShA_gain (c : U16) (s : State) : (writeShA c s).gain = s.gain := rfl
@[simp] theorem writeShA_cfg (c : U16) (s : State) : (writeShA c s).cfg = s.cfg := rfl
@[simp] theorem writeShA_cal (c : U16) (s : State) : (writeShA c s).cal = s.cal := rfl
@[simp] theorem writeShA_tim (c : U16) (s : State) : (writeShA c s).tim = { s.tim with ccrSh := { s.tim.ccrSh with a := c } } := rfl
@[simp] theorem writeShA_out (c : U16) (s : State) : (writeShA c s).out = s.out := rfl
@[simp] theorem writeShA_agenda (c : U16) (s : State) : (writeShA c s).agenda = s.agenda := rfl
@[simp] theorem writeShA_env (c : U16) (s : State) : (writeShA c s).env = s.env := rfl
@[simp] theorem writeShA_opnd (c : U16) (s : State) : (writeShA c s).opnd = s.opnd := rfl
@[simp] theorem writeShA_res (c : U16) (s : State) : (writeShA c s).res = s.res := rfl
@[simp] theorem writeShA_owed (c : U16) (s : State) : (writeShA c s).owed = s.owed := rfl

@[simp] theorem writeShB_par (c : U16) (s : State) : (writeShB c s).par = s.par := rfl
@[simp] theorem writeShB_run (c : U16) (s : State) : (writeShB c s).run = s.run := rfl
@[simp] theorem writeShB_dcf (c : U16) (s : State) : (writeShB c s).dcf = s.dcf := rfl
@[simp] theorem writeShB_lat (c : U16) (s : State) : (writeShB c s).lat = s.lat := rfl
@[simp] theorem writeShB_rk (c : U16) (s : State) : (writeShB c s).rk = s.rk := rfl
@[simp] theorem writeShB_lk (c : U16) (s : State) : (writeShB c s).lk = s.lk := rfl
@[simp] theorem writeShB_gain (c : U16) (s : State) : (writeShB c s).gain = s.gain := rfl
@[simp] theorem writeShB_cfg (c : U16) (s : State) : (writeShB c s).cfg = s.cfg := rfl
@[simp] theorem writeShB_cal (c : U16) (s : State) : (writeShB c s).cal = s.cal := rfl
@[simp] theorem writeShB_tim (c : U16) (s : State) : (writeShB c s).tim = { s.tim with ccrSh := { s.tim.ccrSh with b := c } } := rfl
@[simp] theorem writeShB_out (c : U16) (s : State) : (writeShB c s).out = s.out := rfl
@[simp] theorem writeShB_agenda (c : U16) (s : State) : (writeShB c s).agenda = s.agenda := rfl
@[simp] theorem writeShB_env (c : U16) (s : State) : (writeShB c s).env = s.env := rfl
@[simp] theorem writeShB_opnd (c : U16) (s : State) : (writeShB c s).opnd = s.opnd := rfl
@[simp] theorem writeShB_res (c : U16) (s : State) : (writeShB c s).res = s.res := rfl
@[simp] theorem writeShB_owed (c : U16) (s : State) : (writeShB c s).owed = s.owed := rfl

@[simp] theorem writeShC_par (c : U16) (s : State) : (writeShC c s).par = s.par := rfl
@[simp] theorem writeShC_run (c : U16) (s : State) : (writeShC c s).run = s.run := rfl
@[simp] theorem writeShC_dcf (c : U16) (s : State) : (writeShC c s).dcf = s.dcf := rfl
@[simp] theorem writeShC_lat (c : U16) (s : State) : (writeShC c s).lat = s.lat := rfl
@[simp] theorem writeShC_rk (c : U16) (s : State) : (writeShC c s).rk = s.rk := rfl
@[simp] theorem writeShC_lk (c : U16) (s : State) : (writeShC c s).lk = s.lk := rfl
@[simp] theorem writeShC_gain (c : U16) (s : State) : (writeShC c s).gain = s.gain := rfl
@[simp] theorem writeShC_cfg (c : U16) (s : State) : (writeShC c s).cfg = s.cfg := rfl
@[simp] theorem writeShC_cal (c : U16) (s : State) : (writeShC c s).cal = s.cal := rfl
@[simp] theorem writeShC_tim (c : U16) (s : State) : (writeShC c s).tim = { s.tim with ccrSh := { s.tim.ccrSh with c := c } } := rfl
@[simp] theorem writeShC_out (c : U16) (s : State) : (writeShC c s).out = s.out := rfl
@[simp] theorem writeShC_agenda (c : U16) (s : State) : (writeShC c s).agenda = s.agenda := rfl
@[simp] theorem writeShC_env (c : U16) (s : State) : (writeShC c s).env = s.env := rfl
@[simp] theorem writeShC_opnd (c : U16) (s : State) : (writeShC c s).opnd = s.opnd := rfl
@[simp] theorem writeShC_res (c : U16) (s : State) : (writeShC c s).res = s.res := rfl
@[simp] theorem writeShC_owed (c : U16) (s : State) : (writeShC c s).owed = s.owed := rfl

@[simp] theorem answer_par (r : MicroResult) (s : State) : (answer r s).par = s.par := rfl
@[simp] theorem answer_run (r : MicroResult) (s : State) : (answer r s).run = s.run := rfl
@[simp] theorem answer_dcf (r : MicroResult) (s : State) : (answer r s).dcf = s.dcf := rfl
@[simp] theorem answer_lat (r : MicroResult) (s : State) : (answer r s).lat = s.lat := rfl
@[simp] theorem answer_rk (r : MicroResult) (s : State) : (answer r s).rk = s.rk := rfl
@[simp] theorem answer_lk (r : MicroResult) (s : State) : (answer r s).lk = s.lk := rfl
@[simp] theorem answer_gain (r : MicroResult) (s : State) : (answer r s).gain = s.gain := rfl
@[simp] theorem answer_cfg (r : MicroResult) (s : State) : (answer r s).cfg = s.cfg := rfl
@[simp] theorem answer_cal (r : MicroResult) (s : State) : (answer r s).cal = s.cal := rfl
@[simp] theorem answer_tim (r : MicroResult) (s : State) : (answer r s).tim = s.tim := rfl
@[simp] theorem answer_out (r : MicroResult) (s : State) : (answer r s).out = s.out := rfl
@[simp] theorem answer_agenda (r : MicroResult) (s : State) : (answer r s).agenda = s.agenda := rfl
@[simp] theorem answer_env (r : MicroResult) (s : State) : (answer r s).env = s.env := rfl
@[simp] theorem answer_opnd (r : MicroResult) (s : State) : (answer r s).opnd = s.opnd := rfl
@[simp] theorem answer_res (r : MicroResult) (s : State) : (answer r s).res = r := rfl
@[simp] theorem answer_owed (r : MicroResult) (s : State) : (answer r s).owed = s.owed := rfl

@[simp] theorem present_par (a : Arrival) (s : State) : (present a s).par = s.par := rfl
@[simp] theorem present_run (a : Arrival) (s : State) : (present a s).run = s.run := rfl
@[simp] theorem present_dcf (a : Arrival) (s : State) : (present a s).dcf = s.dcf := rfl
@[simp] theorem present_lat (a : Arrival) (s : State) : (present a s).lat = s.lat := rfl
@[simp] theorem present_rk (a : Arrival) (s : State) : (present a s).rk = s.rk := rfl
@[simp] theorem present_lk (a : Arrival) (s : State) : (present a s).lk = s.lk := rfl
@[simp] theorem present_gain (a : Arrival) (s : State) : (present a s).gain = s.gain := rfl
@[simp] theorem present_cfg (a : Arrival) (s : State) : (present a s).cfg = s.cfg := rfl
@[simp] theorem present_cal (a : Arrival) (s : State) : (present a s).cal = s.cal := rfl
@[simp] theorem present_tim (a : Arrival) (s : State) : (present a s).tim = s.tim := rfl
@[simp] theorem present_out (a : Arrival) (s : State) : (present a s).out = s.out := rfl
@[simp] theorem present_agenda (a : Arrival) (s : State) : (present a s).agenda = a :: s.agenda := rfl
@[simp] theorem present_env (a : Arrival) (s : State) : (present a s).env = s.env := rfl
@[simp] theorem present_opnd (a : Arrival) (s : State) : (present a s).opnd = s.opnd := rfl
@[simp] theorem present_res (a : Arrival) (s : State) : (present a s).res = s.res := rfl
@[simp] theorem present_owed (a : Arrival) (s : State) : (present a s).owed = s.owed := rfl

@[simp] theorem takeDue_par (s : State) : (takeDue s).par = s.par := rfl
@[simp] theorem takeDue_run (s : State) : (takeDue s).run = s.run := rfl
@[simp] theorem takeDue_dcf (s : State) : (takeDue s).dcf = s.dcf := rfl
@[simp] theorem takeDue_lat (s : State) : (takeDue s).lat = s.lat := rfl
@[simp] theorem takeDue_rk (s : State) : (takeDue s).rk = s.rk := rfl
@[simp] theorem takeDue_lk (s : State) : (takeDue s).lk = s.lk := rfl
@[simp] theorem takeDue_gain (s : State) : (takeDue s).gain = s.gain := rfl
@[simp] theorem takeDue_cfg (s : State) : (takeDue s).cfg = s.cfg := rfl
@[simp] theorem takeDue_cal (s : State) : (takeDue s).cal = s.cal := rfl
@[simp] theorem takeDue_tim (s : State) : (takeDue s).tim = s.tim := rfl
@[simp] theorem takeDue_out (s : State) : (takeDue s).out = s.out := rfl
@[simp] theorem takeDue_agenda (s : State) : (takeDue s).agenda = s.agenda := rfl
@[simp] theorem takeDue_env (s : State) : (takeDue s).env = (eventWordRead s).env := rfl
@[simp] theorem takeDue_opnd (s : State) : (takeDue s).opnd = s.opnd := rfl
@[simp] theorem takeDue_res (s : State) : (takeDue s).res = s.res := rfl
@[simp] theorem takeDue_owed (s : State) : (takeDue s).owed = true := rfl

@[simp] theorem takeArrival_par (a : Arrival) (s : State) : (takeArrival a s).par = s.par := by cases a <;> rfl
@[simp] theorem takeArrival_run (a : Arrival) (s : State) : (takeArrival a s).run = s.run := by cases a <;> rfl
@[simp] theorem takeArrival_dcf (a : Arrival) (s : State) : (takeArrival a s).dcf = s.dcf := by cases a <;> rfl
@[simp] theorem takeArrival_lat (a : Arrival) (s : State) : (takeArrival a s).lat = s.lat := by cases a <;> rfl
@[simp] theorem takeArrival_rk (a : Arrival) (s : State) : (takeArrival a s).rk = s.rk := by cases a <;> rfl
@[simp] theorem takeArrival_lk (a : Arrival) (s : State) : (takeArrival a s).lk = s.lk := by cases a <;> rfl
@[simp] theorem takeArrival_gain (a : Arrival) (s : State) : (takeArrival a s).gain = s.gain := by cases a <;> rfl
@[simp] theorem takeArrival_cfg (a : Arrival) (s : State) : (takeArrival a s).cfg = s.cfg := by cases a <;> rfl
@[simp] theorem takeArrival_cal (a : Arrival) (s : State) : (takeArrival a s).cal = s.cal := by cases a <;> rfl
@[simp] theorem takeArrival_tim (a : Arrival) (s : State) : (takeArrival a s).tim = s.tim := by cases a <;> rfl
@[simp] theorem takeArrival_out (a : Arrival) (s : State) : (takeArrival a s).out = s.out := by cases a <;> rfl
@[simp] theorem takeArrival_env (a : Arrival) (s : State) : (takeArrival a s).env = s.env := by cases a <;> rfl
@[simp] theorem takeArrival_res (a : Arrival) (s : State) : (takeArrival a s).res = s.res := by cases a <;> rfl
@[simp] theorem takeArrival_agenda (a : Arrival) (s : State) : (takeArrival a s).agenda = s.agenda.tail := by cases a <;> rfl
@[simp] theorem takeArrival_owed (a : Arrival) (s : State) :
    (takeArrival a s).owed = (s.tim.uif && (s.owed || !isTimEvent a)) := by
  cases a <;> simp [takeArrival, isTimEvent]

@[simp] theorem makeReady_par (a : Arrival) (s : State) : (makeReady a s).par = s.par := by cases a <;> rfl
@[simp] theorem makeReady_run (a : Arrival) (s : State) : (makeReady a s).run = s.run := by cases a <;> rfl
@[simp] theorem makeReady_dcf (a : Arrival) (s : State) : (makeReady a s).dcf = s.dcf := by cases a <;> rfl
@[simp] theorem makeReady_lat (a : Arrival) (s : State) : (makeReady a s).lat = s.lat := by cases a <;> rfl
@[simp] theorem makeReady_rk (a : Arrival) (s : State) : (makeReady a s).rk = s.rk := by cases a <;> rfl
@[simp] theorem makeReady_lk (a : Arrival) (s : State) : (makeReady a s).lk = s.lk := by cases a <;> rfl
@[simp] theorem makeReady_gain (a : Arrival) (s : State) : (makeReady a s).gain = s.gain := by cases a <;> rfl
@[simp] theorem makeReady_cfg (a : Arrival) (s : State) : (makeReady a s).cfg = s.cfg := by cases a <;> rfl
@[simp] theorem makeReady_cal (a : Arrival) (s : State) : (makeReady a s).cal = s.cal := by cases a <;> rfl
@[simp] theorem makeReady_out (a : Arrival) (s : State) : (makeReady a s).out = s.out := by cases a <;> rfl
@[simp] theorem makeReady_agenda (a : Arrival) (s : State) : (makeReady a s).agenda = s.agenda := by cases a <;> rfl
@[simp] theorem makeReady_env (a : Arrival) (s : State) : (makeReady a s).env = s.env := by cases a <;> rfl
@[simp] theorem makeReady_opnd (a : Arrival) (s : State) : (makeReady a s).opnd = s.opnd := by cases a <;> rfl
@[simp] theorem makeReady_res (a : Arrival) (s : State) : (makeReady a s).res = s.res := by cases a <;> rfl
@[simp] theorem makeReady_owed (a : Arrival) (s : State) : (makeReady a s).owed = false := by cases a <;> rfl

@[simp] theorem resetR_par (s : State) : (resetR s).par = s.par := rfl
@[simp] theorem resetR_run (s : State) : (resetR s).run = s.run := rfl
@[simp] theorem resetR_dcf (s : State) : (resetR s).dcf = s.dcf := rfl
@[simp] theorem resetR_lat (s : State) : (resetR s).lat = s.lat := rfl
@[simp] theorem resetR_rk (s : State) : (resetR s).rk = { s.rk with v := F32.zero, mod := F32.qnan, i := F32.zero } := rfl
@[simp] theorem resetR_lk (s : State) : (resetR s).lk = s.lk := rfl
@[simp] theorem resetR_gain (s : State) : (resetR s).gain = s.gain := rfl
@[simp] theorem resetR_cfg (s : State) : (resetR s).cfg = s.cfg := rfl
@[simp] theorem resetR_cal (s : State) : (resetR s).cal = s.cal := rfl
@[simp] theorem resetR_tim (s : State) : (resetR s).tim = s.tim := rfl
@[simp] theorem resetR_out (s : State) : (resetR s).out = s.out := rfl
@[simp] theorem resetR_agenda (s : State) : (resetR s).agenda = s.agenda := rfl
@[simp] theorem resetR_env (s : State) : (resetR s).env = s.env := rfl
@[simp] theorem resetR_opnd (s : State) : (resetR s).opnd = s.opnd := rfl
@[simp] theorem resetR_res (s : State) : (resetR s).res = s.res := rfl
@[simp] theorem resetR_owed (s : State) : (resetR s).owed = s.owed := rfl

@[simp] theorem sampleR_par (ia : F32) (s : State) : (sampleR ia s).par = s.par := rfl
@[simp] theorem sampleR_run (ia : F32) (s : State) : (sampleR ia s).run = s.run := rfl
@[simp] theorem sampleR_dcf (ia : F32) (s : State) : (sampleR ia s).dcf = s.dcf := rfl
@[simp] theorem sampleR_lat (ia : F32) (s : State) : (sampleR ia s).lat = s.lat := rfl
@[simp] theorem sampleR_rk (ia : F32) (s : State) : (sampleR ia s).rk = { s.rk with i := ia, v := integrate s ia } := rfl
@[simp] theorem sampleR_lk (ia : F32) (s : State) : (sampleR ia s).lk = s.lk := rfl
@[simp] theorem sampleR_gain (ia : F32) (s : State) : (sampleR ia s).gain = s.gain := rfl
@[simp] theorem sampleR_cfg (ia : F32) (s : State) : (sampleR ia s).cfg = s.cfg := rfl
@[simp] theorem sampleR_cal (ia : F32) (s : State) : (sampleR ia s).cal = s.cal := rfl
@[simp] theorem sampleR_tim (ia : F32) (s : State) : (sampleR ia s).tim = s.tim := rfl
@[simp] theorem sampleR_out (ia : F32) (s : State) : (sampleR ia s).out = s.out := rfl
@[simp] theorem sampleR_agenda (ia : F32) (s : State) : (sampleR ia s).agenda = s.agenda := rfl
@[simp] theorem sampleR_env (ia : F32) (s : State) : (sampleR ia s).env = s.env := rfl
@[simp] theorem sampleR_opnd (ia : F32) (s : State) : (sampleR ia s).opnd = s.opnd := rfl
@[simp] theorem sampleR_res (ia : F32) (s : State) : (sampleR ia s).res = s.res := rfl
@[simp] theorem sampleR_owed (ia : F32) (s : State) : (sampleR ia s).owed = s.owed := rfl

@[simp] theorem modulateR_par (v : F32) (s : State) : (modulateR v s).par = s.par := rfl
@[simp] theorem modulateR_run (v : F32) (s : State) : (modulateR v s).run = s.run := rfl
@[simp] theorem modulateR_dcf (v : F32) (s : State) : (modulateR v s).dcf = s.dcf := rfl
@[simp] theorem modulateR_lat (v : F32) (s : State) : (modulateR v s).lat = s.lat := rfl
@[simp] theorem modulateR_rk (v : F32) (s : State) : (modulateR v s).rk = { s.rk with mod := F32.div s.rk.v v } := rfl
@[simp] theorem modulateR_lk (v : F32) (s : State) : (modulateR v s).lk = s.lk := rfl
@[simp] theorem modulateR_gain (v : F32) (s : State) : (modulateR v s).gain = s.gain := rfl
@[simp] theorem modulateR_cfg (v : F32) (s : State) : (modulateR v s).cfg = s.cfg := rfl
@[simp] theorem modulateR_cal (v : F32) (s : State) : (modulateR v s).cal = s.cal := rfl
@[simp] theorem modulateR_tim (v : F32) (s : State) : (modulateR v s).tim = s.tim := rfl
@[simp] theorem modulateR_out (v : F32) (s : State) : (modulateR v s).out = s.out := rfl
@[simp] theorem modulateR_agenda (v : F32) (s : State) : (modulateR v s).agenda = s.agenda := rfl
@[simp] theorem modulateR_env (v : F32) (s : State) : (modulateR v s).env = s.env := rfl
@[simp] theorem modulateR_opnd (v : F32) (s : State) : (modulateR v s).opnd = s.opnd := rfl
@[simp] theorem modulateR_res (v : F32) (s : State) : (modulateR v s).res = s.res := rfl
@[simp] theorem modulateR_owed (v : F32) (s : State) : (modulateR v s).owed = s.owed := rfl

@[simp] theorem resetL_par (s : State) : (resetL s).par = s.par := rfl
@[simp] theorem resetL_run (s : State) : (resetL s).run = s.run := rfl
@[simp] theorem resetL_dcf (s : State) : (resetL s).dcf = s.dcf := rfl
@[simp] theorem resetL_lat (s : State) : (resetL s).lat = s.lat := rfl
@[simp] theorem resetL_rk (s : State) : (resetL s).rk = s.rk := rfl
@[simp] theorem resetL_lk (s : State) : (resetL s).lk = { s.lk with attached := false, dI := F32.zero, lastI := F32.zero, t0 := 0#32, t1 := 0#32 } := rfl
@[simp] theorem resetL_gain (s : State) : (resetL s).gain = s.gain := rfl
@[simp] theorem resetL_cfg (s : State) : (resetL s).cfg = s.cfg := rfl
@[simp] theorem resetL_cal (s : State) : (resetL s).cal = s.cal := rfl
@[simp] theorem resetL_tim (s : State) : (resetL s).tim = s.tim := rfl
@[simp] theorem resetL_out (s : State) : (resetL s).out = s.out := rfl
@[simp] theorem resetL_agenda (s : State) : (resetL s).agenda = s.agenda := rfl
@[simp] theorem resetL_env (s : State) : (resetL s).env = s.env := rfl
@[simp] theorem resetL_opnd (s : State) : (resetL s).opnd = s.opnd := rfl
@[simp] theorem resetL_res (s : State) : (resetL s).res = s.res := rfl
@[simp] theorem resetL_owed (s : State) : (resetL s).owed = s.owed := rfl

@[simp] theorem sampleL_par (ia : F32) (ts : U32) (s : State) : (sampleL ia ts s).par = s.par := rfl
@[simp] theorem sampleL_run (ia : F32) (ts : U32) (s : State) : (sampleL ia ts s).run = s.run := rfl
@[simp] theorem sampleL_dcf (ia : F32) (ts : U32) (s : State) : (sampleL ia ts s).dcf = s.dcf := rfl
@[simp] theorem sampleL_lat (ia : F32) (ts : U32) (s : State) : (sampleL ia ts s).lat = s.lat := rfl
@[simp] theorem sampleL_rk (ia : F32) (ts : U32) (s : State) : (sampleL ia ts s).rk = s.rk := rfl
@[simp] theorem sampleL_gain (ia : F32) (ts : U32) (s : State) : (sampleL ia ts s).gain = s.gain := rfl
@[simp] theorem sampleL_cfg (ia : F32) (ts : U32) (s : State) : (sampleL ia ts s).cfg = s.cfg := rfl
@[simp] theorem sampleL_cal (ia : F32) (ts : U32) (s : State) : (sampleL ia ts s).cal = s.cal := rfl
@[simp] theorem sampleL_tim (ia : F32) (ts : U32) (s : State) : (sampleL ia ts s).tim = s.tim := rfl
@[simp] theorem sampleL_out (ia : F32) (ts : U32) (s : State) : (sampleL ia ts s).out = s.out := rfl
@[simp] theorem sampleL_agenda (ia : F32) (ts : U32) (s : State) : (sampleL ia ts s).agenda = s.agenda := rfl
@[simp] theorem sampleL_env (ia : F32) (ts : U32) (s : State) : (sampleL ia ts s).env = s.env := rfl
@[simp] theorem sampleL_opnd (ia : F32) (ts : U32) (s : State) : (sampleL ia ts s).opnd = s.opnd := rfl
@[simp] theorem sampleL_res (ia : F32) (ts : U32) (s : State) : (sampleL ia ts s).res = s.res := rfl
@[simp] theorem sampleL_owed (ia : F32) (ts : U32) (s : State) : (sampleL ia ts s).owed = s.owed := rfl

@[simp] theorem flipL_par (s : State) : (flipL s).par = s.par := rfl
@[simp] theorem flipL_run (s : State) : (flipL s).run = s.run := rfl
@[simp] theorem flipL_dcf (s : State) : (flipL s).dcf = s.dcf := rfl
@[simp] theorem flipL_lat (s : State) : (flipL s).lat = s.lat := rfl
@[simp] theorem flipL_rk (s : State) : (flipL s).rk = s.rk := rfl
@[simp] theorem flipL_lk (s : State) : (flipL s).lk = { s.lk with v := s.lk.v.neg } := rfl
@[simp] theorem flipL_gain (s : State) : (flipL s).gain = s.gain := rfl
@[simp] theorem flipL_cfg (s : State) : (flipL s).cfg = s.cfg := rfl
@[simp] theorem flipL_cal (s : State) : (flipL s).cal = s.cal := rfl
@[simp] theorem flipL_tim (s : State) : (flipL s).tim = s.tim := rfl
@[simp] theorem flipL_out (s : State) : (flipL s).out = s.out := rfl
@[simp] theorem flipL_agenda (s : State) : (flipL s).agenda = s.agenda := rfl
@[simp] theorem flipL_env (s : State) : (flipL s).env = s.env := rfl
@[simp] theorem flipL_opnd (s : State) : (flipL s).opnd = s.opnd := rfl
@[simp] theorem flipL_res (s : State) : (flipL s).res = s.res := rfl
@[simp] theorem flipL_owed (s : State) : (flipL s).owed = s.owed := rfl

@[simp] theorem clearErr_par (s : State) : (clearErr s).par = s.par := rfl
@[simp] theorem clearErr_run (s : State) : (clearErr s).run = { s.run with error := 0#32 } := rfl
@[simp] theorem clearErr_dcf (s : State) : (clearErr s).dcf = s.dcf := rfl
@[simp] theorem clearErr_lat (s : State) : (clearErr s).lat = s.lat := rfl
@[simp] theorem clearErr_rk (s : State) : (clearErr s).rk = s.rk := rfl
@[simp] theorem clearErr_lk (s : State) : (clearErr s).lk = s.lk := rfl
@[simp] theorem clearErr_gain (s : State) : (clearErr s).gain = s.gain := rfl
@[simp] theorem clearErr_cfg (s : State) : (clearErr s).cfg = s.cfg := rfl
@[simp] theorem clearErr_cal (s : State) : (clearErr s).cal = s.cal := rfl
@[simp] theorem clearErr_tim (s : State) : (clearErr s).tim = s.tim := rfl
@[simp] theorem clearErr_out (s : State) : (clearErr s).out = s.out := rfl
@[simp] theorem clearErr_agenda (s : State) : (clearErr s).agenda = s.agenda := rfl
@[simp] theorem clearErr_env (s : State) : (clearErr s).env = s.env := rfl
@[simp] theorem clearErr_opnd (s : State) : (clearErr s).opnd = s.opnd := rfl
@[simp] theorem clearErr_res (s : State) : (clearErr s).res = s.res := rfl
@[simp] theorem clearErr_owed (s : State) : (clearErr s).owed = s.owed := rfl

@[simp] theorem beginCycle_par (s : State) : (beginCycle s).par = s.par := rfl
@[simp] theorem beginCycle_run (s : State) : (beginCycle s).run = { s.run with ts := s.run.ts + s.par.tUpdTicks } := rfl
@[simp] theorem beginCycle_dcf (s : State) : (beginCycle s).dcf = s.dcf := rfl
@[simp] theorem beginCycle_lat (s : State) : (beginCycle s).lat = s.lat := rfl
@[simp] theorem beginCycle_rk (s : State) : (beginCycle s).rk = s.rk := rfl
@[simp] theorem beginCycle_lk (s : State) : (beginCycle s).lk = s.lk := rfl
@[simp] theorem beginCycle_gain (s : State) : (beginCycle s).gain = s.gain := rfl
@[simp] theorem beginCycle_cfg (s : State) : (beginCycle s).cfg = s.cfg := rfl
@[simp] theorem beginCycle_cal (s : State) : (beginCycle s).cal = s.cal := rfl
@[simp] theorem beginCycle_tim (s : State) : (beginCycle s).tim = { s.tim with uif := false } := rfl
@[simp] theorem beginCycle_out (s : State) : (beginCycle s).out = s.out := rfl
@[simp] theorem beginCycle_agenda (s : State) : (beginCycle s).agenda = s.agenda := rfl
@[simp] theorem beginCycle_env (s : State) : (beginCycle s).env = s.env := rfl
@[simp] theorem beginCycle_opnd (s : State) : (beginCycle s).opnd = s.opnd := rfl
@[simp] theorem beginCycle_res (s : State) : (beginCycle s).res = s.res := rfl
@[simp] theorem beginCycle_owed (s : State) : (beginCycle s).owed = s.owed := rfl

@[simp] theorem setDirection_par (d : Bool) (s : State) : (setDirection d s).par = s.par := rfl
@[simp] theorem setDirection_run (d : Bool) (s : State) : (setDirection d s).run = { s.run with countingDown := d } := rfl
@[simp] theorem setDirection_dcf (d : Bool) (s : State) : (setDirection d s).dcf = s.dcf := rfl
@[simp] theorem setDirection_lat (d : Bool) (s : State) : (setDirection d s).lat = s.lat := rfl
@[simp] theorem setDirection_rk (d : Bool) (s : State) : (setDirection d s).rk = s.rk := rfl
@[simp] theorem setDirection_lk (d : Bool) (s : State) : (setDirection d s).lk = s.lk := rfl
@[simp] theorem setDirection_gain (d : Bool) (s : State) : (setDirection d s).gain = s.gain := rfl
@[simp] theorem setDirection_cfg (d : Bool) (s : State) : (setDirection d s).cfg = s.cfg := rfl
@[simp] theorem setDirection_cal (d : Bool) (s : State) : (setDirection d s).cal = s.cal := rfl
@[simp] theorem setDirection_tim (d : Bool) (s : State) : (setDirection d s).tim = s.tim := rfl
@[simp] theorem setDirection_out (d : Bool) (s : State) : (setDirection d s).out = s.out := rfl
@[simp] theorem setDirection_agenda (d : Bool) (s : State) : (setDirection d s).agenda = s.agenda := rfl
@[simp] theorem setDirection_env (d : Bool) (s : State) : (setDirection d s).env = s.env := rfl
@[simp] theorem setDirection_opnd (d : Bool) (s : State) : (setDirection d s).opnd = s.opnd := rfl
@[simp] theorem setDirection_res (d : Bool) (s : State) : (setDirection d s).res = s.res := rfl
@[simp] theorem setDirection_owed (d : Bool) (s : State) : (setDirection d s).owed = s.owed := rfl

@[simp] theorem latchCurrents_par (i : Triple F32) (s : State) : (latchCurrents i s).par = s.par := rfl
@[simp] theorem latchCurrents_run (i : Triple F32) (s : State) : (latchCurrents i s).run = s.run := rfl
@[simp] theorem latchCurrents_dcf (i : Triple F32) (s : State) : (latchCurrents i s).dcf = s.dcf := rfl
@[simp] theorem latchCurrents_lat (i : Triple F32) (s : State) : (latchCurrents i s).lat = { s.lat with iMeas := corrected s i, iLeak := leakSum (corrected s i) } := rfl
@[simp] theorem latchCurrents_rk (i : Triple F32) (s : State) : (latchCurrents i s).rk = s.rk := rfl
@[simp] theorem latchCurrents_lk (i : Triple F32) (s : State) : (latchCurrents i s).lk = s.lk := rfl
@[simp] theorem latchCurrents_gain (i : Triple F32) (s : State) : (latchCurrents i s).gain = s.gain := rfl
@[simp] theorem latchCurrents_cfg (i : Triple F32) (s : State) : (latchCurrents i s).cfg = s.cfg := rfl
@[simp] theorem latchCurrents_cal (i : Triple F32) (s : State) : (latchCurrents i s).cal = s.cal := rfl
@[simp] theorem latchCurrents_tim (i : Triple F32) (s : State) : (latchCurrents i s).tim = s.tim := rfl
@[simp] theorem latchCurrents_out (i : Triple F32) (s : State) : (latchCurrents i s).out = s.out := rfl
@[simp] theorem latchCurrents_agenda (i : Triple F32) (s : State) : (latchCurrents i s).agenda = s.agenda := rfl
@[simp] theorem latchCurrents_env (i : Triple F32) (s : State) : (latchCurrents i s).env = s.env := rfl
@[simp] theorem latchCurrents_opnd (i : Triple F32) (s : State) : (latchCurrents i s).opnd = s.opnd := rfl
@[simp] theorem latchCurrents_res (i : Triple F32) (s : State) : (latchCurrents i s).res = s.res := rfl
@[simp] theorem latchCurrents_owed (i : Triple F32) (s : State) : (latchCurrents i s).owed = s.owed := rfl

@[simp] theorem cacheLim_par (lim : F32) (s : State) : (cacheLim lim s).par = s.par := rfl
@[simp] theorem cacheLim_run (lim : F32) (s : State) : (cacheLim lim s).run = s.run := rfl
@[simp] theorem cacheLim_dcf (lim : F32) (s : State) : (cacheLim lim s).dcf = s.dcf := rfl
@[simp] theorem cacheLim_lat (lim : F32) (s : State) : (cacheLim lim s).lat = { s.lat with iLimEff := lim } := rfl
@[simp] theorem cacheLim_rk (lim : F32) (s : State) : (cacheLim lim s).rk = s.rk := rfl
@[simp] theorem cacheLim_lk (lim : F32) (s : State) : (cacheLim lim s).lk = s.lk := rfl
@[simp] theorem cacheLim_gain (lim : F32) (s : State) : (cacheLim lim s).gain = s.gain := rfl
@[simp] theorem cacheLim_cfg (lim : F32) (s : State) : (cacheLim lim s).cfg = s.cfg := rfl
@[simp] theorem cacheLim_cal (lim : F32) (s : State) : (cacheLim lim s).cal = s.cal := rfl
@[simp] theorem cacheLim_tim (lim : F32) (s : State) : (cacheLim lim s).tim = s.tim := rfl
@[simp] theorem cacheLim_out (lim : F32) (s : State) : (cacheLim lim s).out = s.out := rfl
@[simp] theorem cacheLim_agenda (lim : F32) (s : State) : (cacheLim lim s).agenda = s.agenda := rfl
@[simp] theorem cacheLim_env (lim : F32) (s : State) : (cacheLim lim s).env = s.env := rfl
@[simp] theorem cacheLim_opnd (lim : F32) (s : State) : (cacheLim lim s).opnd = s.opnd := rfl
@[simp] theorem cacheLim_res (lim : F32) (s : State) : (cacheLim lim s).res = s.res := rfl
@[simp] theorem cacheLim_owed (lim : F32) (s : State) : (cacheLim lim s).owed = s.owed := rfl

@[simp] theorem latchBus_par (ibus : F32) (s : State) : (latchBus ibus s).par = s.par := rfl
@[simp] theorem latchBus_run (ibus : F32) (s : State) : (latchBus ibus s).run = s.run := rfl
@[simp] theorem latchBus_dcf (ibus : F32) (s : State) : (latchBus ibus s).dcf = s.dcf := rfl
@[simp] theorem latchBus_lat (ibus : F32) (s : State) : (latchBus ibus s).lat = { s.lat with iBus := if s.run.isArmed then ibus else F32.zero } := rfl
@[simp] theorem latchBus_rk (ibus : F32) (s : State) : (latchBus ibus s).rk = s.rk := rfl
@[simp] theorem latchBus_lk (ibus : F32) (s : State) : (latchBus ibus s).lk = s.lk := rfl
@[simp] theorem latchBus_gain (ibus : F32) (s : State) : (latchBus ibus s).gain = s.gain := rfl
@[simp] theorem latchBus_cfg (ibus : F32) (s : State) : (latchBus ibus s).cfg = s.cfg := rfl
@[simp] theorem latchBus_cal (ibus : F32) (s : State) : (latchBus ibus s).cal = s.cal := rfl
@[simp] theorem latchBus_tim (ibus : F32) (s : State) : (latchBus ibus s).tim = s.tim := rfl
@[simp] theorem latchBus_out (ibus : F32) (s : State) : (latchBus ibus s).out = s.out := rfl
@[simp] theorem latchBus_agenda (ibus : F32) (s : State) : (latchBus ibus s).agenda = s.agenda := rfl
@[simp] theorem latchBus_env (ibus : F32) (s : State) : (latchBus ibus s).env = s.env := rfl
@[simp] theorem latchBus_opnd (ibus : F32) (s : State) : (latchBus ibus s).opnd = s.opnd := rfl
@[simp] theorem latchBus_res (ibus : F32) (s : State) : (latchBus ibus s).res = s.res := rfl
@[simp] theorem latchBus_owed (ibus : F32) (s : State) : (latchBus ibus s).owed = s.owed := rfl

@[simp] theorem enterWait_par (w : CalState) (s : State) : (enterWait w s).par = s.par := rfl
@[simp] theorem enterWait_run (w : CalState) (s : State) : (enterWait w s).run = s.run := rfl
@[simp] theorem enterWait_dcf (w : CalState) (s : State) : (enterWait w s).dcf = s.dcf := rfl
@[simp] theorem enterWait_lat (w : CalState) (s : State) : (enterWait w s).lat = s.lat := rfl
@[simp] theorem enterWait_rk (w : CalState) (s : State) : (enterWait w s).rk = s.rk := rfl
@[simp] theorem enterWait_lk (w : CalState) (s : State) : (enterWait w s).lk = s.lk := rfl
@[simp] theorem enterWait_gain (w : CalState) (s : State) : (enterWait w s).gain = s.gain := rfl
@[simp] theorem enterWait_cfg (w : CalState) (s : State) : (enterWait w s).cfg = s.cfg := rfl
@[simp] theorem enterWait_cal (w : CalState) (s : State) : (enterWait w s).cal = { s.cal with cnt := 0#32, state := w } := rfl
@[simp] theorem enterWait_tim (w : CalState) (s : State) : (enterWait w s).tim = s.tim := rfl
@[simp] theorem enterWait_out (w : CalState) (s : State) : (enterWait w s).out = s.out := rfl
@[simp] theorem enterWait_agenda (w : CalState) (s : State) : (enterWait w s).agenda = s.agenda := rfl
@[simp] theorem enterWait_env (w : CalState) (s : State) : (enterWait w s).env = s.env := rfl
@[simp] theorem enterWait_opnd (w : CalState) (s : State) : (enterWait w s).opnd = s.opnd := rfl
@[simp] theorem enterWait_res (w : CalState) (s : State) : (enterWait w s).res = s.res := rfl
@[simp] theorem enterWait_owed (w : CalState) (s : State) : (enterWait w s).owed = s.owed := rfl

@[simp] theorem setSeq_par (b : Bool) (s : State) : (setSeq b s).par = s.par := rfl
@[simp] theorem setSeq_run (b : Bool) (s : State) : (setSeq b s).run = s.run := rfl
@[simp] theorem setSeq_dcf (b : Bool) (s : State) : (setSeq b s).dcf = s.dcf := rfl
@[simp] theorem setSeq_lat (b : Bool) (s : State) : (setSeq b s).lat = s.lat := rfl
@[simp] theorem setSeq_rk (b : Bool) (s : State) : (setSeq b s).rk = s.rk := rfl
@[simp] theorem setSeq_lk (b : Bool) (s : State) : (setSeq b s).lk = s.lk := rfl
@[simp] theorem setSeq_gain (b : Bool) (s : State) : (setSeq b s).gain = s.gain := rfl
@[simp] theorem setSeq_cfg (b : Bool) (s : State) : (setSeq b s).cfg = s.cfg := rfl
@[simp] theorem setSeq_cal (b : Bool) (s : State) : (setSeq b s).cal = { s.cal with seq := b } := rfl
@[simp] theorem setSeq_tim (b : Bool) (s : State) : (setSeq b s).tim = s.tim := rfl
@[simp] theorem setSeq_out (b : Bool) (s : State) : (setSeq b s).out = s.out := rfl
@[simp] theorem setSeq_agenda (b : Bool) (s : State) : (setSeq b s).agenda = s.agenda := rfl
@[simp] theorem setSeq_env (b : Bool) (s : State) : (setSeq b s).env = s.env := rfl
@[simp] theorem setSeq_opnd (b : Bool) (s : State) : (setSeq b s).opnd = s.opnd := rfl
@[simp] theorem setSeq_res (b : Bool) (s : State) : (setSeq b s).res = s.res := rfl
@[simp] theorem setSeq_owed (b : Bool) (s : State) : (setSeq b s).owed = s.owed := rfl

@[simp] theorem setOk_par (b : Bool) (s : State) : (setOk b s).par = s.par := rfl
@[simp] theorem setOk_run (b : Bool) (s : State) : (setOk b s).run = s.run := rfl
@[simp] theorem setOk_dcf (b : Bool) (s : State) : (setOk b s).dcf = s.dcf := rfl
@[simp] theorem setOk_lat (b : Bool) (s : State) : (setOk b s).lat = s.lat := rfl
@[simp] theorem setOk_rk (b : Bool) (s : State) : (setOk b s).rk = s.rk := rfl
@[simp] theorem setOk_lk (b : Bool) (s : State) : (setOk b s).lk = s.lk := rfl
@[simp] theorem setOk_gain (b : Bool) (s : State) : (setOk b s).gain = s.gain := rfl
@[simp] theorem setOk_cfg (b : Bool) (s : State) : (setOk b s).cfg = s.cfg := rfl
@[simp] theorem setOk_cal (b : Bool) (s : State) : (setOk b s).cal = { s.cal with ok := b } := rfl
@[simp] theorem setOk_tim (b : Bool) (s : State) : (setOk b s).tim = s.tim := rfl
@[simp] theorem setOk_out (b : Bool) (s : State) : (setOk b s).out = s.out := rfl
@[simp] theorem setOk_agenda (b : Bool) (s : State) : (setOk b s).agenda = s.agenda := rfl
@[simp] theorem setOk_env (b : Bool) (s : State) : (setOk b s).env = s.env := rfl
@[simp] theorem setOk_opnd (b : Bool) (s : State) : (setOk b s).opnd = s.opnd := rfl
@[simp] theorem setOk_res (b : Bool) (s : State) : (setOk b s).res = s.res := rfl
@[simp] theorem setOk_owed (b : Bool) (s : State) : (setOk b s).owed = s.owed := rfl

@[simp] theorem setCal_par (w : CalState) (s : State) : (setCal w s).par = s.par := rfl
@[simp] theorem setCal_run (w : CalState) (s : State) : (setCal w s).run = s.run := rfl
@[simp] theorem setCal_dcf (w : CalState) (s : State) : (setCal w s).dcf = s.dcf := rfl
@[simp] theorem setCal_lat (w : CalState) (s : State) : (setCal w s).lat = s.lat := rfl
@[simp] theorem setCal_rk (w : CalState) (s : State) : (setCal w s).rk = s.rk := rfl
@[simp] theorem setCal_lk (w : CalState) (s : State) : (setCal w s).lk = s.lk := rfl
@[simp] theorem setCal_gain (w : CalState) (s : State) : (setCal w s).gain = s.gain := rfl
@[simp] theorem setCal_cfg (w : CalState) (s : State) : (setCal w s).cfg = s.cfg := rfl
@[simp] theorem setCal_cal (w : CalState) (s : State) : (setCal w s).cal = { s.cal with state := w } := rfl
@[simp] theorem setCal_tim (w : CalState) (s : State) : (setCal w s).tim = s.tim := rfl
@[simp] theorem setCal_out (w : CalState) (s : State) : (setCal w s).out = s.out := rfl
@[simp] theorem setCal_agenda (w : CalState) (s : State) : (setCal w s).agenda = s.agenda := rfl
@[simp] theorem setCal_env (w : CalState) (s : State) : (setCal w s).env = s.env := rfl
@[simp] theorem setCal_opnd (w : CalState) (s : State) : (setCal w s).opnd = s.opnd := rfl
@[simp] theorem setCal_res (w : CalState) (s : State) : (setCal w s).res = s.res := rfl
@[simp] theorem setCal_owed (w : CalState) (s : State) : (setCal w s).owed = s.owed := rfl

@[simp] theorem createR_par (s : State) : (createR s).par = s.par := rfl
@[simp] theorem createR_run (s : State) : (createR s).run = s.run := rfl
@[simp] theorem createR_dcf (s : State) : (createR s).dcf = s.dcf := rfl
@[simp] theorem createR_lat (s : State) : (createR s).lat = s.lat := rfl
@[simp] theorem createR_lk (s : State) : (createR s).lk = s.lk := rfl
@[simp] theorem createR_gain (s : State) : (createR s).gain = s.gain := rfl
@[simp] theorem createR_cfg (s : State) : (createR s).cfg = s.cfg := rfl
@[simp] theorem createR_cal (s : State) : (createR s).cal = s.cal := rfl
@[simp] theorem createR_tim (s : State) : (createR s).tim = s.tim := rfl
@[simp] theorem createR_out (s : State) : (createR s).out = s.out := rfl
@[simp] theorem createR_agenda (s : State) : (createR s).agenda = s.agenda := rfl
@[simp] theorem createR_env (s : State) : (createR s).env = s.env := rfl
@[simp] theorem createR_opnd (s : State) : (createR s).opnd = s.opnd := rfl
@[simp] theorem createR_res (s : State) : (createR s).res = s.res := rfl
@[simp] theorem createR_owed (s : State) : (createR s).owed = s.owed := rfl

@[simp] theorem createL_par (s : State) : (createL s).par = s.par := rfl
@[simp] theorem createL_run (s : State) : (createL s).run = s.run := rfl
@[simp] theorem createL_dcf (s : State) : (createL s).dcf = s.dcf := rfl
@[simp] theorem createL_lat (s : State) : (createL s).lat = s.lat := rfl
@[simp] theorem createL_rk (s : State) : (createL s).rk = s.rk := rfl
@[simp] theorem createL_gain (s : State) : (createL s).gain = s.gain := rfl
@[simp] theorem createL_cfg (s : State) : (createL s).cfg = s.cfg := rfl
@[simp] theorem createL_cal (s : State) : (createL s).cal = s.cal := rfl
@[simp] theorem createL_tim (s : State) : (createL s).tim = s.tim := rfl
@[simp] theorem createL_out (s : State) : (createL s).out = s.out := rfl
@[simp] theorem createL_agenda (s : State) : (createL s).agenda = s.agenda := rfl
@[simp] theorem createL_env (s : State) : (createL s).env = s.env := rfl
@[simp] theorem createL_opnd (s : State) : (createL s).opnd = s.opnd := rfl
@[simp] theorem createL_res (s : State) : (createL s).res = s.res := rfl
@[simp] theorem createL_owed (s : State) : (createL s).owed = s.owed := rfl

@[simp] theorem gains_par (s : State) : (gains s).par = s.par := rfl
@[simp] theorem gains_run (s : State) : (gains s).run = s.run := rfl
@[simp] theorem gains_dcf (s : State) : (gains s).dcf = s.dcf := rfl
@[simp] theorem gains_lat (s : State) : (gains s).lat = s.lat := rfl
@[simp] theorem gains_rk (s : State) : (gains s).rk = s.rk := rfl
@[simp] theorem gains_lk (s : State) : (gains s).lk = s.lk := rfl
@[simp] theorem gains_cfg (s : State) : (gains s).cfg = s.cfg := rfl
@[simp] theorem gains_cal (s : State) : (gains s).cal = s.cal := rfl
@[simp] theorem gains_tim (s : State) : (gains s).tim = s.tim := rfl
@[simp] theorem gains_out (s : State) : (gains s).out = s.out := rfl
@[simp] theorem gains_agenda (s : State) : (gains s).agenda = s.agenda := rfl
@[simp] theorem gains_env (s : State) : (gains s).env = s.env := rfl
@[simp] theorem gains_opnd (s : State) : (gains s).opnd = s.opnd := rfl
@[simp] theorem gains_res (s : State) : (gains s).res = s.res := rfl
@[simp] theorem gains_owed (s : State) : (gains s).owed = s.owed := rfl

end Sys2Proof.Machine
end

