-- ==== Sys2Proof/Laws/Ops.lean ====
section
/-!
SUPPORT. For each shared operation: the fields it leaves alone (tagged @[simp], so that no proof unfolds it for a
frame), and what it does to the others.
-/

namespace Sys2Proof.Machine

@[simp] theorem raiseIf_par (c : Bool) (k : ErrorKind) (s : State) : (raiseIf c k s).par = s.par := by unfold raiseIf; split <;> rfl
@[simp] theorem raiseIf_dcf (c : Bool) (k : ErrorKind) (s : State) : (raiseIf c k s).dcf = s.dcf := by unfold raiseIf; split <;> rfl
@[simp] theorem raiseIf_lat (c : Bool) (k : ErrorKind) (s : State) : (raiseIf c k s).lat = s.lat := by unfold raiseIf; split <;> rfl
@[simp] theorem raiseIf_rk (c : Bool) (k : ErrorKind) (s : State) : (raiseIf c k s).rk = s.rk := by unfold raiseIf; split <;> rfl
@[simp] theorem raiseIf_lk (c : Bool) (k : ErrorKind) (s : State) : (raiseIf c k s).lk = s.lk := by unfold raiseIf; split <;> rfl
@[simp] theorem raiseIf_gain (c : Bool) (k : ErrorKind) (s : State) : (raiseIf c k s).gain = s.gain := by unfold raiseIf; split <;> rfl
@[simp] theorem raiseIf_cfg (c : Bool) (k : ErrorKind) (s : State) : (raiseIf c k s).cfg = s.cfg := by unfold raiseIf; split <;> rfl
@[simp] theorem raiseIf_cal (c : Bool) (k : ErrorKind) (s : State) : (raiseIf c k s).cal = s.cal := by unfold raiseIf; split <;> rfl
@[simp] theorem raiseIf_agenda (c : Bool) (k : ErrorKind) (s : State) : (raiseIf c k s).agenda = s.agenda := by unfold raiseIf; split <;> rfl
@[simp] theorem raiseIf_env (c : Bool) (k : ErrorKind) (s : State) : (raiseIf c k s).env = s.env := by unfold raiseIf; split <;> rfl
@[simp] theorem raiseIf_opnd (c : Bool) (k : ErrorKind) (s : State) : (raiseIf c k s).opnd = s.opnd := by unfold raiseIf; split <;> rfl
@[simp] theorem raiseIf_res (c : Bool) (k : ErrorKind) (s : State) : (raiseIf c k s).res = s.res := by unfold raiseIf; split <;> rfl
@[simp] theorem raiseIf_owed (c : Bool) (k : ErrorKind) (s : State) : (raiseIf c k s).owed = s.owed := by unfold raiseIf; split <;> rfl

@[simp] theorem raiseIf_true (k : ErrorKind) (s : State) : raiseIf true k s = raise k s := rfl
@[simp] theorem raiseIf_false (k : ErrorKind) (s : State) : raiseIf false k s = s := rfl

/-- The mask after a conditional raise. -/
theorem raiseIf_error (c : Bool) (k : ErrorKind) (s : State) :
    (raiseIf c k s).run.error = if c then s.run.error ||| kindMask k else s.run.error := by
  cases c <;> rfl

/-- A raise that happens leaves the block safely off (spec/41_arm_commit R159). -/
theorem raise_safeOff (k : ErrorKind) (s : State) : (raise k s).safeOff := ⟨rfl, rfl, rfl, rfl⟩

/-- A disarm leaves the block safely off (R159). -/
theorem disarm_safeOff (s : State) : (disarm s).safeOff := ⟨rfl, rfl, rfl, rfl⟩

/-- A second disarm emits nothing more (spec/41_arm_commit R158). -/
theorem disarm_out_of_disarmed (s : State) (h : s.run.isArmed = false) : (disarm s).out = s.out := by simp [h]

/-- A raise is one OR into the mask, then a disarm (R160). -/
theorem raise_eq_disarm (k : ErrorKind) (s : State) :
    raise k s = disarm { s with run := { s.run with error := s.run.error ||| kindMask k } } := rfl

@[simp] theorem setAoe_par (t : Bool) (s : State) : (setAoe t s).par = s.par := by unfold setAoe; split <;> rfl
@[simp] theorem setAoe_run (t : Bool) (s : State) : (setAoe t s).run = s.run := by unfold setAoe; split <;> rfl
@[simp] theorem setAoe_dcf (t : Bool) (s : State) : (setAoe t s).dcf = s.dcf := by unfold setAoe; split <;> rfl
@[simp] theorem setAoe_lat (t : Bool) (s : State) : (setAoe t s).lat = s.lat := by unfold setAoe; split <;> rfl
@[simp] theorem setAoe_rk (t : Bool) (s : State) : (setAoe t s).rk = s.rk := by unfold setAoe; split <;> rfl
@[simp] theorem setAoe_lk (t : Bool) (s : State) : (setAoe t s).lk = s.lk := by unfold setAoe; split <;> rfl
@[simp] theorem setAoe_gain (t : Bool) (s : State) : (setAoe t s).gain = s.gain := by unfold setAoe; split <;> rfl
@[simp] theorem setAoe_cfg (t : Bool) (s : State) : (setAoe t s).cfg = s.cfg := by unfold setAoe; split <;> rfl
@[simp] theorem setAoe_cal (t : Bool) (s : State) : (setAoe t s).cal = s.cal := by unfold setAoe; split <;> rfl
@[simp] theorem setAoe_out (t : Bool) (s : State) : (setAoe t s).out = s.out := by unfold setAoe; split <;> rfl
@[simp] theorem setAoe_agenda (t : Bool) (s : State) : (setAoe t s).agenda = s.agenda := by unfold setAoe; split <;> rfl
@[simp] theorem setAoe_env (t : Bool) (s : State) : (setAoe t s).env = s.env := by unfold setAoe; split <;> rfl
@[simp] theorem setAoe_opnd (t : Bool) (s : State) : (setAoe t s).opnd = s.opnd := by unfold setAoe; split <;> rfl
@[simp] theorem setAoe_res (t : Bool) (s : State) : (setAoe t s).res = s.res := by unfold setAoe; split <;> rfl
@[simp] theorem setAoe_owed (t : Bool) (s : State) : (setAoe t s).owed = s.owed := by unfold setAoe; split <;> rfl

@[simp] theorem setAoe_tim (t : Bool) (s : State) :
    (setAoe t s).tim = { s.tim with aoe := s.tim.aoe || (!t && s.run.isArmed) } := by
  unfold setAoe
  split
  · next h => simp [h]
  · next h =>
    have h' : (!t && s.run.isArmed) = false := by simpa using h
    simp [h']

@[simp] theorem testLate_par (s : State) : (testLate s).par = s.par := by simp [testLate]
@[simp] theorem testLate_dcf (s : State) : (testLate s).dcf = s.dcf := by simp [testLate]
@[simp] theorem testLate_lat (s : State) : (testLate s).lat = s.lat := by simp [testLate]
@[simp] theorem testLate_rk (s : State) : (testLate s).rk = s.rk := by simp [testLate]
@[simp] theorem testLate_lk (s : State) : (testLate s).lk = s.lk := by simp [testLate]
@[simp] theorem testLate_gain (s : State) : (testLate s).gain = s.gain := by simp [testLate]
@[simp] theorem testLate_cfg (s : State) : (testLate s).cfg = s.cfg := by simp [testLate]
@[simp] theorem testLate_cal (s : State) : (testLate s).cal = s.cal := by simp [testLate]
@[simp] theorem testLate_agenda (s : State) : (testLate s).agenda = s.agenda := by simp [testLate]
@[simp] theorem testLate_env (s : State) : (testLate s).env = s.env := by simp [testLate]
@[simp] theorem testLate_opnd (s : State) : (testLate s).opnd = s.opnd := by simp [testLate]
@[simp] theorem testLate_res (s : State) : (testLate s).res = s.res := by simp [testLate]
@[simp] theorem testLate_owed (s : State) : (testLate s).owed = s.owed := by simp [testLate]

@[simp] theorem testInterlock_par (s : State) : (testInterlock s).par = s.par := by simp [testInterlock]
@[simp] theorem testInterlock_dcf (s : State) : (testInterlock s).dcf = s.dcf := by simp [testInterlock]
@[simp] theorem testInterlock_lat (s : State) : (testInterlock s).lat = s.lat := by simp [testInterlock]
@[simp] theorem testInterlock_rk (s : State) : (testInterlock s).rk = s.rk := by simp [testInterlock]
@[simp] theorem testInterlock_lk (s : State) : (testInterlock s).lk = s.lk := by simp [testInterlock]
@[simp] theorem testInterlock_gain (s : State) : (testInterlock s).gain = s.gain := by simp [testInterlock]
@[simp] theorem testInterlock_cfg (s : State) : (testInterlock s).cfg = s.cfg := by simp [testInterlock]
@[simp] theorem testInterlock_cal (s : State) : (testInterlock s).cal = s.cal := by simp [testInterlock]
@[simp] theorem testInterlock_agenda (s : State) : (testInterlock s).agenda = s.agenda := by simp [testInterlock]
@[simp] theorem testInterlock_opnd (s : State) : (testInterlock s).opnd = s.opnd := by simp [testInterlock]
@[simp] theorem testInterlock_res (s : State) : (testInterlock s).res = s.res := by simp [testInterlock]
@[simp] theorem testInterlock_owed (s : State) : (testInterlock s).owed = s.owed := by simp [testInterlock]

@[simp] theorem testInterlock_env (s : State) : (testInterlock s).env = (brakeRead s).env := by simp [testInterlock]

@[simp] theorem timEvents_par (n : Nat) (s : State) : (timEvents n s).par = s.par := by induction n generalizing s with
  | zero => rfl
  | succ n ih => simp [timEvents, ih]
@[simp] theorem timEvents_run (n : Nat) (s : State) : (timEvents n s).run = s.run := by induction n generalizing s with
  | zero => rfl
  | succ n ih => simp [timEvents, ih]
@[simp] theorem timEvents_dcf (n : Nat) (s : State) : (timEvents n s).dcf = s.dcf := by induction n generalizing s with
  | zero => rfl
  | succ n ih => simp [timEvents, ih]
@[simp] theorem timEvents_lat (n : Nat) (s : State) : (timEvents n s).lat = s.lat := by induction n generalizing s with
  | zero => rfl
  | succ n ih => simp [timEvents, ih]
@[simp] theorem timEvents_rk (n : Nat) (s : State) : (timEvents n s).rk = s.rk := by induction n generalizing s with
  | zero => rfl
  | succ n ih => simp [timEvents, ih]
@[simp] theorem timEvents_lk (n : Nat) (s : State) : (timEvents n s).lk = s.lk := by induction n generalizing s with
  | zero => rfl
  | succ n ih => simp [timEvents, ih]
@[simp] theorem timEvents_gain (n : Nat) (s : State) : (timEvents n s).gain = s.gain := by induction n generalizing s with
  | zero => rfl
  | succ n ih => simp [timEvents, ih]
@[simp] theorem timEvents_cfg (n : Nat) (s : State) : (timEvents n s).cfg = s.cfg := by induction n generalizing s with
  | zero => rfl
  | succ n ih => simp [timEvents, ih]
@[simp] theorem timEvents_cal (n : Nat) (s : State) : (timEvents n s).cal = s.cal := by induction n generalizing s with
  | zero => rfl
  | succ n ih => simp [timEvents, ih]
@[simp] theorem timEvents_out (n : Nat) (s : State) : (timEvents n s).out = s.out := by induction n generalizing s with
  | zero => rfl
  | succ n ih => simp [timEvents, ih]
@[simp] theorem timEvents_agenda (n : Nat) (s : State) : (timEvents n s).agenda = s.agenda := by induction n generalizing s with
  | zero => rfl
  | succ n ih => simp [timEvents, ih]
@[simp] theorem timEvents_env (n : Nat) (s : State) : (timEvents n s).env = s.env := by induction n generalizing s with
  | zero => rfl
  | succ n ih => simp [timEvents, ih]
@[simp] theorem timEvents_opnd (n : Nat) (s : State) : (timEvents n s).opnd = s.opnd := by induction n generalizing s with
  | zero => rfl
  | succ n ih => simp [timEvents, ih]
@[simp] theorem timEvents_res (n : Nat) (s : State) : (timEvents n s).res = s.res := by induction n generalizing s with
  | zero => rfl
  | succ n ih => simp [timEvents, ih]
@[simp] theorem timEvents_owed (n : Nat) (s : State) : (timEvents n s).owed = s.owed := by induction n generalizing s with
  | zero => rfl
  | succ n ih => simp [timEvents, ih]

/-- Events change no shadow register and no latch (spec/41_arm_commit R166). -/
@[simp] theorem timEvents_ccrSh (n : Nat) (s : State) : (timEvents n s).tim.ccrSh = s.tim.ccrSh := by
  induction n generalizing s with
  | zero => rfl
  | succ n ih => simp [timEvents, ih]
@[simp] theorem timEvents_aoe (n : Nat) (s : State) : (timEvents n s).tim.aoe = s.tim.aoe := by
  induction n generalizing s with
  | zero => rfl
  | succ n ih => simp [timEvents, ih]

/-- At least one event: the shadows are active, the enable follows the latch, the flag is pending (R166). -/
theorem timEvents_succ_tim (n : Nat) (s : State) :
    (timEvents (n + 1) s).tim =
      { s.tim with
        ccrAct := s.tim.ccrSh, moe := s.tim.moe || s.tim.aoe, uif := true,
        dir := if (n + 1) % 2 = 1 then !s.tim.dir else s.tim.dir } := by
  induction n generalizing s with
  | zero => rfl
  | succ n ih =>
    rw [timEvents, ih]
    rcases Nat.mod_two_eq_zero_or_one n with h | h <;> simp [Nat.add_mod, h]

/-- What a number of events can do, once for all. -/
theorem timEvents_cases (n : Nat) (s : State) :
    (n = 0 ∧ timEvents n s = s) ∨
    (0 < n ∧ (timEvents n s).tim.ccrAct = s.tim.ccrSh ∧ (timEvents n s).tim.uif = true ∧
      (timEvents n s).tim.moe = (s.tim.moe || s.tim.aoe)) := by
  cases n with
  | zero => exact .inl ⟨rfl, rfl⟩
  | succ n => exact .inr ⟨Nat.succ_pos n, by simp [timEvents_succ_tim]⟩

@[simp] theorem timSlot_par (s : State) : (timSlot s).par = s.par := by simp [timSlot]
@[simp] theorem timSlot_run (s : State) : (timSlot s).run = s.run := by simp [timSlot]
@[simp] theorem timSlot_dcf (s : State) : (timSlot s).dcf = s.dcf := by simp [timSlot]
@[simp] theorem timSlot_lat (s : State) : (timSlot s).lat = s.lat := by simp [timSlot]
@[simp] theorem timSlot_rk (s : State) : (timSlot s).rk = s.rk := by simp [timSlot]
@[simp] theorem timSlot_lk (s : State) : (timSlot s).lk = s.lk := by simp [timSlot]
@[simp] theorem timSlot_gain (s : State) : (timSlot s).gain = s.gain := by simp [timSlot]
@[simp] theorem timSlot_cfg (s : State) : (timSlot s).cfg = s.cfg := by simp [timSlot]
@[simp] theorem timSlot_cal (s : State) : (timSlot s).cal = s.cal := by simp [timSlot]
@[simp] theorem timSlot_out (s : State) : (timSlot s).out = s.out := by simp [timSlot]
@[simp] theorem timSlot_agenda (s : State) : (timSlot s).agenda = s.agenda := by simp [timSlot]
@[simp] theorem timSlot_opnd (s : State) : (timSlot s).opnd = s.opnd := by simp [timSlot]
@[simp] theorem timSlot_res (s : State) : (timSlot s).res = s.res := by simp [timSlot]
@[simp] theorem timSlot_owed (s : State) : (timSlot s).owed = s.owed := by simp [timSlot]

@[simp] theorem timSlot_env (s : State) : (timSlot s).env = (timRead s).env := by simp [timSlot]
@[simp] theorem timSlot_ccrSh (s : State) : (timSlot s).tim.ccrSh = s.tim.ccrSh := by simp [timSlot]
@[simp] theorem timSlot_aoe (s : State) : (timSlot s).tim.aoe = s.tim.aoe := by simp [timSlot]

/-- A boundary of a quiet cycle only takes its draw. -/
theorem timSlot_quiet (s : State) (h : s.quiet) : timSlot s = timRead s := by
  have h0 : timNow s = 0 := by simp [timNow, h, Wire.now]
  simp [timSlot, h0, timEvents]

/-- A boundary where one event is queued. -/
theorem timSlot_one (s : State) (l : List Nat) (h : s.env.timEvents.queued = 1 :: l) :
    timSlot s = timEvent (timRead s) := by
  have h1 : timNow s = 1 := by simp [timNow, h, Wire.now]
  simp [timSlot, h1, timEvents]

@[simp] theorem latchPwm_par (c : Triple U16) (t : Bool) (s : State) : (latchPwm c t s).par = s.par := by simp [latchPwm]
@[simp] theorem latchPwm_dcf (c : Triple U16) (t : Bool) (s : State) : (latchPwm c t s).dcf = s.dcf := by simp [latchPwm]
@[simp] theorem latchPwm_lat (c : Triple U16) (t : Bool) (s : State) : (latchPwm c t s).lat = s.lat := by simp [latchPwm]
@[simp] theorem latchPwm_rk (c : Triple U16) (t : Bool) (s : State) : (latchPwm c t s).rk = s.rk := by simp [latchPwm]
@[simp] theorem latchPwm_lk (c : Triple U16) (t : Bool) (s : State) : (latchPwm c t s).lk = s.lk := by simp [latchPwm]
@[simp] theorem latchPwm_gain (c : Triple U16) (t : Bool) (s : State) : (latchPwm c t s).gain = s.gain := by simp [latchPwm]
@[simp] theorem latchPwm_cfg (c : Triple U16) (t : Bool) (s : State) : (latchPwm c t s).cfg = s.cfg := by simp [latchPwm]
@[simp] theorem latchPwm_cal (c : Triple U16) (t : Bool) (s : State) : (latchPwm c t s).cal = s.cal := by simp [latchPwm]
@[simp] theorem latchPwm_agenda (c : Triple U16) (t : Bool) (s : State) : (latchPwm c t s).agenda = s.agenda := by simp [latchPwm]
@[simp] theorem latchPwm_opnd (c : Triple U16) (t : Bool) (s : State) : (latchPwm c t s).opnd = s.opnd := by simp [latchPwm]
@[simp] theorem latchPwm_res (c : Triple U16) (t : Bool) (s : State) : (latchPwm c t s).res = s.res := by simp [latchPwm]
@[simp] theorem latchPwm_owed (c : Triple U16) (t : Bool) (s : State) : (latchPwm c t s).owed = s.owed := by simp [latchPwm]

theorem raiseIf_ccrSh (c : Bool) (k : ErrorKind) (s : State) : (raiseIf c k s).tim.ccrSh = s.tim.ccrSh := by
  cases c <;> rfl

/-- Whatever else happens, the shadows hold the codes afterwards (spec/41_arm_commit R162, R165). -/
theorem latchPwm_ccrSh (c : Triple U16) (t : Bool) (s : State) : (latchPwm c t s).tim.ccrSh = c := by
  simp [latchPwm, testLate, raiseIf_ccrSh]

@[simp] theorem sanFault_par (adc : Triple U32) (s : State) : (sanFault adc s).par = s.par := by simp [sanFault]
@[simp] theorem sanFault_dcf (adc : Triple U32) (s : State) : (sanFault adc s).dcf = s.dcf := by simp [sanFault]
@[simp] theorem sanFault_lat (adc : Triple U32) (s : State) : (sanFault adc s).lat = s.lat := by simp [sanFault]
@[simp] theorem sanFault_rk (adc : Triple U32) (s : State) : (sanFault adc s).rk = s.rk := by simp [sanFault]
@[simp] theorem sanFault_lk (adc : Triple U32) (s : State) : (sanFault adc s).lk = s.lk := by simp [sanFault]
@[simp] theorem sanFault_gain (adc : Triple U32) (s : State) : (sanFault adc s).gain = s.gain := by simp [sanFault]
@[simp] theorem sanFault_cfg (adc : Triple U32) (s : State) : (sanFault adc s).cfg = s.cfg := by simp [sanFault]
@[simp] theorem sanFault_cal (adc : Triple U32) (s : State) : (sanFault adc s).cal = s.cal := by simp [sanFault]
@[simp] theorem sanFault_agenda (adc : Triple U32) (s : State) : (sanFault adc s).agenda = s.agenda := by simp [sanFault]
@[simp] theorem sanFault_env (adc : Triple U32) (s : State) : (sanFault adc s).env = s.env := by simp [sanFault]
@[simp] theorem sanFault_opnd (adc : Triple U32) (s : State) : (sanFault adc s).opnd = s.opnd := by simp [sanFault]
@[simp] theorem sanFault_res (adc : Triple U32) (s : State) : (sanFault adc s).res = s.res := by simp [sanFault]
@[simp] theorem sanFault_owed (adc : Triple U32) (s : State) : (sanFault adc s).owed = s.owed := by simp [sanFault]

@[simp] theorem leakCheck_par (s : State) : (leakCheck s).par = s.par := by simp [leakCheck]
@[simp] theorem leakCheck_dcf (s : State) : (leakCheck s).dcf = s.dcf := by simp [leakCheck]
@[simp] theorem leakCheck_lat (s : State) : (leakCheck s).lat = s.lat := by simp [leakCheck]
@[simp] theorem leakCheck_rk (s : State) : (leakCheck s).rk = s.rk := by simp [leakCheck]
@[simp] theorem leakCheck_lk (s : State) : (leakCheck s).lk = s.lk := by simp [leakCheck]
@[simp] theorem leakCheck_gain (s : State) : (leakCheck s).gain = s.gain := by simp [leakCheck]
@[simp] theorem leakCheck_cfg (s : State) : (leakCheck s).cfg = s.cfg := by simp [leakCheck]
@[simp] theorem leakCheck_cal (s : State) : (leakCheck s).cal = s.cal := by simp [leakCheck]
@[simp] theorem leakCheck_agenda (s : State) : (leakCheck s).agenda = s.agenda := by simp [leakCheck]
@[simp] theorem leakCheck_env (s : State) : (leakCheck s).env = s.env := by simp [leakCheck]
@[simp] theorem leakCheck_opnd (s : State) : (leakCheck s).opnd = s.opnd := by simp [leakCheck]
@[simp] theorem leakCheck_res (s : State) : (leakCheck s).res = s.res := by simp [leakCheck]
@[simp] theorem leakCheck_owed (s : State) : (leakCheck s).owed = s.owed := by simp [leakCheck]

@[simp] theorem magCheck_par (s : State) : (magCheck s).par = s.par := by simp [magCheck]
@[simp] theorem magCheck_dcf (s : State) : (magCheck s).dcf = s.dcf := by simp [magCheck]
@[simp] theorem magCheck_lat (s : State) : (magCheck s).lat = s.lat := by simp [magCheck]
@[simp] theorem magCheck_rk (s : State) : (magCheck s).rk = s.rk := by simp [magCheck]
@[simp] theorem magCheck_lk (s : State) : (magCheck s).lk = s.lk := by simp [magCheck]
@[simp] theorem magCheck_gain (s : State) : (magCheck s).gain = s.gain := by simp [magCheck]
@[simp] theorem magCheck_cfg (s : State) : (magCheck s).cfg = s.cfg := by simp [magCheck]
@[simp] theorem magCheck_cal (s : State) : (magCheck s).cal = s.cal := by simp [magCheck]
@[simp] theorem magCheck_agenda (s : State) : (magCheck s).agenda = s.agenda := by simp [magCheck]
@[simp] theorem magCheck_env (s : State) : (magCheck s).env = s.env := by simp [magCheck]
@[simp] theorem magCheck_opnd (s : State) : (magCheck s).opnd = s.opnd := by simp [magCheck]
@[simp] theorem magCheck_res (s : State) : (magCheck s).res = s.res := by simp [magCheck]
@[simp] theorem magCheck_owed (s : State) : (magCheck s).owed = s.owed := by simp [magCheck]

@[simp] theorem ibusCheck_par (s : State) : (ibusCheck s).par = s.par := by simp [ibusCheck]
@[simp] theorem ibusCheck_dcf (s : State) : (ibusCheck s).dcf = s.dcf := by simp [ibusCheck]
@[simp] theorem ibusCheck_lat (s : State) : (ibusCheck s).lat = s.lat := by simp [ibusCheck]
@[simp] theorem ibusCheck_rk (s : State) : (ibusCheck s).rk = s.rk := by simp [ibusCheck]
@[simp] theorem ibusCheck_lk (s : State) : (ibusCheck s).lk = s.lk := by simp [ibusCheck]
@[simp] theorem ibusCheck_gain (s : State) : (ibusCheck s).gain = s.gain := by simp [ibusCheck]
@[simp] theorem ibusCheck_cfg (s : State) : (ibusCheck s).cfg = s.cfg := by simp [ibusCheck]
@[simp] theorem ibusCheck_cal (s : State) : (ibusCheck s).cal = s.cal := by simp [ibusCheck]
@[simp] theorem ibusCheck_agenda (s : State) : (ibusCheck s).agenda = s.agenda := by simp [ibusCheck]
@[simp] theorem ibusCheck_env (s : State) : (ibusCheck s).env = s.env := by simp [ibusCheck]
@[simp] theorem ibusCheck_opnd (s : State) : (ibusCheck s).opnd = s.opnd := by simp [ibusCheck]
@[simp] theorem ibusCheck_res (s : State) : (ibusCheck s).res = s.res := by simp [ibusCheck]
@[simp] theorem ibusCheck_owed (s : State) : (ibusCheck s).owed = s.owed := by simp [ibusCheck]

@[simp] theorem filterUpdate_par (i : Triple F32) (s : State) : (filterUpdate i s).par = s.par := by unfold filterUpdate; split <;> rfl
@[simp] theorem filterUpdate_run (i : Triple F32) (s : State) : (filterUpdate i s).run = s.run := by unfold filterUpdate; split <;> rfl
@[simp] theorem filterUpdate_lat (i : Triple F32) (s : State) : (filterUpdate i s).lat = s.lat := by unfold filterUpdate; split <;> rfl
@[simp] theorem filterUpdate_rk (i : Triple F32) (s : State) : (filterUpdate i s).rk = s.rk := by unfold filterUpdate; split <;> rfl
@[simp] theorem filterUpdate_lk (i : Triple F32) (s : State) : (filterUpdate i s).lk = s.lk := by unfold filterUpdate; split <;> rfl
@[simp] theorem filterUpdate_gain (i : Triple F32) (s : State) : (filterUpdate i s).gain = s.gain := by unfold filterUpdate; split <;> rfl
@[simp] theorem filterUpdate_cfg (i : Triple F32) (s : State) : (filterUpdate i s).cfg = s.cfg := by unfold filterUpdate; split <;> rfl
@[simp] theorem filterUpdate_cal (i : Triple F32) (s : State) : (filterUpdate i s).cal = s.cal := by unfold filterUpdate; split <;> rfl
@[simp] theorem filterUpdate_tim (i : Triple F32) (s : State) : (filterUpdate i s).tim = s.tim := by unfold filterUpdate; split <;> rfl
@[simp] theorem filterUpdate_out (i : Triple F32) (s : State) : (filterUpdate i s).out = s.out := by unfold filterUpdate; split <;> rfl
@[simp] theorem filterUpdate_agenda (i : Triple F32) (s : State) : (filterUpdate i s).agenda = s.agenda := by unfold filterUpdate; split <;> rfl
@[simp] theorem filterUpdate_env (i : Triple F32) (s : State) : (filterUpdate i s).env = s.env := by unfold filterUpdate; split <;> rfl
@[simp] theorem filterUpdate_opnd (i : Triple F32) (s : State) : (filterUpdate i s).opnd = s.opnd := by unfold filterUpdate; split <;> rfl
@[simp] theorem filterUpdate_res (i : Triple F32) (s : State) : (filterUpdate i s).res = s.res := by unfold filterUpdate; split <;> rfl
@[simp] theorem filterUpdate_owed (i : Triple F32) (s : State) : (filterUpdate i s).owed = s.owed := by unfold filterUpdate; split <;> rfl

@[simp] theorem baseLimRead_par (s : State) : (baseLimRead s).par = s.par := by unfold baseLimRead; split <;> rfl
@[simp] theorem baseLimRead_run (s : State) : (baseLimRead s).run = s.run := by unfold baseLimRead; split <;> rfl
@[simp] theorem baseLimRead_dcf (s : State) : (baseLimRead s).dcf = s.dcf := by unfold baseLimRead; split <;> rfl
@[simp] theorem baseLimRead_lat (s : State) : (baseLimRead s).lat = s.lat := by unfold baseLimRead; split <;> rfl
@[simp] theorem baseLimRead_rk (s : State) : (baseLimRead s).rk = s.rk := by unfold baseLimRead; split <;> rfl
@[simp] theorem baseLimRead_lk (s : State) : (baseLimRead s).lk = s.lk := by unfold baseLimRead; split <;> rfl
@[simp] theorem baseLimRead_gain (s : State) : (baseLimRead s).gain = s.gain := by unfold baseLimRead; split <;> rfl
@[simp] theorem baseLimRead_cfg (s : State) : (baseLimRead s).cfg = s.cfg := by unfold baseLimRead; split <;> rfl
@[simp] theorem baseLimRead_cal (s : State) : (baseLimRead s).cal = s.cal := by unfold baseLimRead; split <;> rfl
@[simp] theorem baseLimRead_tim (s : State) : (baseLimRead s).tim = s.tim := by unfold baseLimRead; split <;> rfl
@[simp] theorem baseLimRead_out (s : State) : (baseLimRead s).out = s.out := by unfold baseLimRead; split <;> rfl
@[simp] theorem baseLimRead_agenda (s : State) : (baseLimRead s).agenda = s.agenda := by unfold baseLimRead; split <;> rfl
@[simp] theorem baseLimRead_opnd (s : State) : (baseLimRead s).opnd = s.opnd := by unfold baseLimRead; split <;> rfl
@[simp] theorem baseLimRead_res (s : State) : (baseLimRead s).res = s.res := by unfold baseLimRead; split <;> rfl
@[simp] theorem baseLimRead_owed (s : State) : (baseLimRead s).owed = s.owed := by unfold baseLimRead; split <;> rfl

@[simp] theorem torqueRead_par (s : State) : (torqueRead s).par = s.par := by unfold torqueRead; split <;> rfl
@[simp] theorem torqueRead_run (s : State) : (torqueRead s).run = s.run := by unfold torqueRead; split <;> rfl
@[simp] theorem torqueRead_dcf (s : State) : (torqueRead s).dcf = s.dcf := by unfold torqueRead; split <;> rfl
@[simp] theorem torqueRead_lat (s : State) : (torqueRead s).lat = s.lat := by unfold torqueRead; split <;> rfl
@[simp] theorem torqueRead_rk (s : State) : (torqueRead s).rk = s.rk := by unfold torqueRead; split <;> rfl
@[simp] theorem torqueRead_lk (s : State) : (torqueRead s).lk = s.lk := by unfold torqueRead; split <;> rfl
@[simp] theorem torqueRead_gain (s : State) : (torqueRead s).gain = s.gain := by unfold torqueRead; split <;> rfl
@[simp] theorem torqueRead_cfg (s : State) : (torqueRead s).cfg = s.cfg := by unfold torqueRead; split <;> rfl
@[simp] theorem torqueRead_cal (s : State) : (torqueRead s).cal = s.cal := by unfold torqueRead; split <;> rfl
@[simp] theorem torqueRead_tim (s : State) : (torqueRead s).tim = s.tim := by unfold torqueRead; split <;> rfl
@[simp] theorem torqueRead_out (s : State) : (torqueRead s).out = s.out := by unfold torqueRead; split <;> rfl
@[simp] theorem torqueRead_agenda (s : State) : (torqueRead s).agenda = s.agenda := by unfold torqueRead; split <;> rfl
@[simp] theorem torqueRead_opnd (s : State) : (torqueRead s).opnd = s.opnd := by unfold torqueRead; split <;> rfl
@[simp] theorem torqueRead_res (s : State) : (torqueRead s).res = s.res := by unfold torqueRead; split <;> rfl
@[simp] theorem torqueRead_owed (s : State) : (torqueRead s).owed = s.owed := by unfold torqueRead; split <;> rfl

@[simp] theorem readLims_par (n i : Nat) (s : State) : (readLims n i s).par = s.par := by induction n generalizing i s with
  | zero => rfl
  | succ n ih => simp [readLims, ih]
@[simp] theorem readLims_run (n i : Nat) (s : State) : (readLims n i s).run = s.run := by induction n generalizing i s with
  | zero => rfl
  | succ n ih => simp [readLims, ih]
@[simp] theorem readLims_dcf (n i : Nat) (s : State) : (readLims n i s).dcf = s.dcf := by induction n generalizing i s with
  | zero => rfl
  | succ n ih => simp [readLims, ih]
@[simp] theorem readLims_lat (n i : Nat) (s : State) : (readLims n i s).lat = s.lat := by induction n generalizing i s with
  | zero => rfl
  | succ n ih => simp [readLims, ih]
@[simp] theorem readLims_rk (n i : Nat) (s : State) : (readLims n i s).rk = s.rk := by induction n generalizing i s with
  | zero => rfl
  | succ n ih => simp [readLims, ih]
@[simp] theorem readLims_lk (n i : Nat) (s : State) : (readLims n i s).lk = s.lk := by induction n generalizing i s with
  | zero => rfl
  | succ n ih => simp [readLims, ih]
@[simp] theorem readLims_gain (n i : Nat) (s : State) : (readLims n i s).gain = s.gain := by induction n generalizing i s with
  | zero => rfl
  | succ n ih => simp [readLims, ih]
@[simp] theorem readLims_cfg (n i : Nat) (s : State) : (readLims n i s).cfg = s.cfg := by induction n generalizing i s with
  | zero => rfl
  | succ n ih => simp [readLims, ih]
@[simp] theorem readLims_cal (n i : Nat) (s : State) : (readLims n i s).cal = s.cal := by induction n generalizing i s with
  | zero => rfl
  | succ n ih => simp [readLims, ih]
@[simp] theorem readLims_tim (n i : Nat) (s : State) : (readLims n i s).tim = s.tim := by induction n generalizing i s with
  | zero => rfl
  | succ n ih => simp [readLims, ih]
@[simp] theorem readLims_out (n i : Nat) (s : State) : (readLims n i s).out = s.out := by induction n generalizing i s with
  | zero => rfl
  | succ n ih => simp [readLims, ih]
@[simp] theorem readLims_agenda (n i : Nat) (s : State) : (readLims n i s).agenda = s.agenda := by induction n generalizing i s with
  | zero => rfl
  | succ n ih => simp [readLims, ih]
@[simp] theorem readLims_opnd (n i : Nat) (s : State) : (readLims n i s).opnd = s.opnd := by induction n generalizing i s with
  | zero => rfl
  | succ n ih => simp [readLims, ih]
@[simp] theorem readLims_res (n i : Nat) (s : State) : (readLims n i s).res = s.res := by induction n generalizing i s with
  | zero => rfl
  | succ n ih => simp [readLims, ih]
@[simp] theorem readLims_owed (n i : Nat) (s : State) : (readLims n i s).owed = s.owed := by induction n generalizing i s with
  | zero => rfl
  | succ n ih => simp [readLims, ih]

@[simp] theorem evalLim_par (s : State) : (evalLim s).par = s.par := by simp [evalLim]
@[simp] theorem evalLim_run (s : State) : (evalLim s).run = s.run := by simp [evalLim]
@[simp] theorem evalLim_dcf (s : State) : (evalLim s).dcf = s.dcf := by simp [evalLim]
@[simp] theorem evalLim_rk (s : State) : (evalLim s).rk = s.rk := by simp [evalLim]
@[simp] theorem evalLim_lk (s : State) : (evalLim s).lk = s.lk := by simp [evalLim]
@[simp] theorem evalLim_gain (s : State) : (evalLim s).gain = s.gain := by simp [evalLim]
@[simp] theorem evalLim_cfg (s : State) : (evalLim s).cfg = s.cfg := by simp [evalLim]
@[simp] theorem evalLim_cal (s : State) : (evalLim s).cal = s.cal := by simp [evalLim]
@[simp] theorem evalLim_tim (s : State) : (evalLim s).tim = s.tim := by simp [evalLim]
@[simp] theorem evalLim_out (s : State) : (evalLim s).out = s.out := by simp [evalLim]
@[simp] theorem evalLim_agenda (s : State) : (evalLim s).agenda = s.agenda := by simp [evalLim]
@[simp] theorem evalLim_opnd (s : State) : (evalLim s).opnd = s.opnd := by simp [evalLim]
@[simp] theorem evalLim_res (s : State) : (evalLim s).res = s.res := by simp [evalLim]
@[simp] theorem evalLim_owed (s : State) : (evalLim s).owed = s.owed := by simp [evalLim]

@[simp] theorem evalLim_lat (s : State) : (evalLim s).lat = { s.lat with iLimEff := effLim s } := by simp [evalLim]

@[simp] theorem measR_par (v ia : F32) (s : State) : (measR v ia s).par = s.par := by unfold measR; split <;> [rfl; split <;> rfl]
@[simp] theorem measR_run (v ia : F32) (s : State) : (measR v ia s).run = s.run := by unfold measR; split <;> [rfl; split <;> rfl]
@[simp] theorem measR_dcf (v ia : F32) (s : State) : (measR v ia s).dcf = s.dcf := by unfold measR; split <;> [rfl; split <;> rfl]
@[simp] theorem measR_lat (v ia : F32) (s : State) : (measR v ia s).lat = s.lat := by unfold measR; split <;> [rfl; split <;> rfl]
@[simp] theorem measR_lk (v ia : F32) (s : State) : (measR v ia s).lk = s.lk := by unfold measR; split <;> [rfl; split <;> rfl]
@[simp] theorem measR_gain (v ia : F32) (s : State) : (measR v ia s).gain = s.gain := by unfold measR; split <;> [rfl; split <;> rfl]
@[simp] theorem measR_cfg (v ia : F32) (s : State) : (measR v ia s).cfg = s.cfg := by unfold measR; split <;> [rfl; split <;> rfl]
@[simp] theorem measR_cal (v ia : F32) (s : State) : (measR v ia s).cal = s.cal := by unfold measR; split <;> [rfl; split <;> rfl]
@[simp] theorem measR_tim (v ia : F32) (s : State) : (measR v ia s).tim = s.tim := by unfold measR; split <;> [rfl; split <;> rfl]
@[simp] theorem measR_out (v ia : F32) (s : State) : (measR v ia s).out = s.out := by unfold measR; split <;> [rfl; split <;> rfl]
@[simp] theorem measR_agenda (v ia : F32) (s : State) : (measR v ia s).agenda = s.agenda := by unfold measR; split <;> [rfl; split <;> rfl]
@[simp] theorem measR_env (v ia : F32) (s : State) : (measR v ia s).env = s.env := by unfold measR; split <;> [rfl; split <;> rfl]
@[simp] theorem measR_opnd (v ia : F32) (s : State) : (measR v ia s).opnd = s.opnd := by unfold measR; split <;> [rfl; split <;> rfl]
@[simp] theorem measR_res (v ia : F32) (s : State) : (measR v ia s).res = s.res := by unfold measR; split <;> [rfl; split <;> rfl]
@[simp] theorem measR_owed (v ia : F32) (s : State) : (measR v ia s).owed = s.owed := by unfold measR; split <;> [rfl; split <;> rfl]

@[simp] theorem measL_par (v ia : F32) (ts : U32) (s : State) : (measL v ia ts s).par = s.par := by unfold measL; split <;> rfl
@[simp] theorem measL_run (v ia : F32) (ts : U32) (s : State) : (measL v ia ts s).run = s.run := by unfold measL; split <;> rfl
@[simp] theorem measL_dcf (v ia : F32) (ts : U32) (s : State) : (measL v ia ts s).dcf = s.dcf := by unfold measL; split <;> rfl
@[simp] theorem measL_lat (v ia : F32) (ts : U32) (s : State) : (measL v ia ts s).lat = s.lat := by unfold measL; split <;> rfl
@[simp] theorem measL_rk (v ia : F32) (ts : U32) (s : State) : (measL v ia ts s).rk = s.rk := by unfold measL; split <;> rfl
@[simp] theorem measL_gain (v ia : F32) (ts : U32) (s : State) : (measL v ia ts s).gain = s.gain := by unfold measL; split <;> rfl
@[simp] theorem measL_cfg (v ia : F32) (ts : U32) (s : State) : (measL v ia ts s).cfg = s.cfg := by unfold measL; split <;> rfl
@[simp] theorem measL_cal (v ia : F32) (ts : U32) (s : State) : (measL v ia ts s).cal = s.cal := by unfold measL; split <;> rfl
@[simp] theorem measL_tim (v ia : F32) (ts : U32) (s : State) : (measL v ia ts s).tim = s.tim := by unfold measL; split <;> rfl
@[simp] theorem measL_out (v ia : F32) (ts : U32) (s : State) : (measL v ia ts s).out = s.out := by unfold measL; split <;> rfl
@[simp] theorem measL_agenda (v ia : F32) (ts : U32) (s : State) : (measL v ia ts s).agenda = s.agenda := by unfold measL; split <;> rfl
@[simp] theorem measL_env (v ia : F32) (ts : U32) (s : State) : (measL v ia ts s).env = s.env := by unfold measL; split <;> rfl
@[simp] theorem measL_opnd (v ia : F32) (ts : U32) (s : State) : (measL v ia ts s).opnd = s.opnd := by unfold measL; split <;> rfl
@[simp] theorem measL_res (v ia : F32) (ts : U32) (s : State) : (measL v ia ts s).res = s.res := by unfold measL; split <;> rfl
@[simp] theorem measL_owed (v ia : F32) (ts : U32) (s : State) : (measL v ia ts s).owed = s.owed := by unfold measL; split <;> rfl

@[simp] theorem outL_par (s : State) : (outL s).par = s.par := by unfold outL; split <;> rfl
@[simp] theorem outL_run (s : State) : (outL s).run = s.run := by unfold outL; split <;> rfl
@[simp] theorem outL_dcf (s : State) : (outL s).dcf = s.dcf := by unfold outL; split <;> rfl
@[simp] theorem outL_lat (s : State) : (outL s).lat = s.lat := by unfold outL; split <;> rfl
@[simp] theorem outL_rk (s : State) : (outL s).rk = s.rk := by unfold outL; split <;> rfl
@[simp] theorem outL_gain (s : State) : (outL s).gain = s.gain := by unfold outL; split <;> rfl
@[simp] theorem outL_cfg (s : State) : (outL s).cfg = s.cfg := by unfold outL; split <;> rfl
@[simp] theorem outL_cal (s : State) : (outL s).cal = s.cal := by unfold outL; split <;> rfl
@[simp] theorem outL_tim (s : State) : (outL s).tim = s.tim := by unfold outL; split <;> rfl
@[simp] theorem outL_out (s : State) : (outL s).out = s.out := by unfold outL; split <;> rfl
@[simp] theorem outL_agenda (s : State) : (outL s).agenda = s.agenda := by unfold outL; split <;> rfl
@[simp] theorem outL_opnd (s : State) : (outL s).opnd = s.opnd := by unfold outL; split <;> rfl
@[simp] theorem outL_res (s : State) : (outL s).res = s.res := by unfold outL; split <;> rfl
@[simp] theorem outL_owed (s : State) : (outL s).owed = s.owed := by unfold outL; split <;> rfl

@[simp] theorem resetX_par (s : State) : (resetX s).par = s.par := rfl
@[simp] theorem resetX_run (s : State) : (resetX s).run = s.run := rfl
@[simp] theorem resetX_dcf (s : State) : (resetX s).dcf = s.dcf := rfl
@[simp] theorem resetX_lat (s : State) : (resetX s).lat = s.lat := rfl
@[simp] theorem resetX_rk (s : State) : (resetX s).rk = s.rk := rfl
@[simp] theorem resetX_lk (s : State) : (resetX s).lk = s.lk := rfl
@[simp] theorem resetX_gain (s : State) : (resetX s).gain = s.gain := rfl
@[simp] theorem resetX_cfg (s : State) : (resetX s).cfg = s.cfg := rfl
@[simp] theorem resetX_cal (s : State) : (resetX s).cal = s.cal := rfl
@[simp] theorem resetX_tim (s : State) : (resetX s).tim = s.tim := rfl
@[simp] theorem resetX_agenda (s : State) : (resetX s).agenda = s.agenda := rfl
@[simp] theorem resetX_env (s : State) : (resetX s).env = s.env := rfl
@[simp] theorem resetX_opnd (s : State) : (resetX s).opnd = s.opnd := rfl
@[simp] theorem resetX_res (s : State) : (resetX s).res = s.res := rfl
@[simp] theorem resetX_owed (s : State) : (resetX s).owed = s.owed := rfl

@[simp] theorem measX_par (v : F32) (i : Triple F32) (ts : U32) (s : State) : (measX v i ts s).par = s.par := rfl
@[simp] theorem measX_run (v : F32) (i : Triple F32) (ts : U32) (s : State) : (measX v i ts s).run = s.run := rfl
@[simp] theorem measX_dcf (v : F32) (i : Triple F32) (ts : U32) (s : State) : (measX v i ts s).dcf = s.dcf := rfl
@[simp] theorem measX_lat (v : F32) (i : Triple F32) (ts : U32) (s : State) : (measX v i ts s).lat = s.lat := rfl
@[simp] theorem measX_rk (v : F32) (i : Triple F32) (ts : U32) (s : State) : (measX v i ts s).rk = s.rk := rfl
@[simp] theorem measX_lk (v : F32) (i : Triple F32) (ts : U32) (s : State) : (measX v i ts s).lk = s.lk := rfl
@[simp] theorem measX_gain (v : F32) (i : Triple F32) (ts : U32) (s : State) : (measX v i ts s).gain = s.gain := rfl
@[simp] theorem measX_cfg (v : F32) (i : Triple F32) (ts : U32) (s : State) : (measX v i ts s).cfg = s.cfg := rfl
@[simp] theorem measX_cal (v : F32) (i : Triple F32) (ts : U32) (s : State) : (measX v i ts s).cal = s.cal := rfl
@[simp] theorem measX_tim (v : F32) (i : Triple F32) (ts : U32) (s : State) : (measX v i ts s).tim = s.tim := rfl
@[simp] theorem measX_agenda (v : F32) (i : Triple F32) (ts : U32) (s : State) : (measX v i ts s).agenda = s.agenda := rfl
@[simp] theorem measX_opnd (v : F32) (i : Triple F32) (ts : U32) (s : State) : (measX v i ts s).opnd = s.opnd := rfl
@[simp] theorem measX_res (v : F32) (i : Triple F32) (ts : U32) (s : State) : (measX v i ts s).res = s.res := rfl
@[simp] theorem measX_owed (v : F32) (i : Triple F32) (ts : U32) (s : State) : (measX v i ts s).owed = s.owed := rfl

@[simp] theorem outX_par (ts : U32) (s : State) : (outX ts s).par = s.par := rfl
@[simp] theorem outX_run (ts : U32) (s : State) : (outX ts s).run = s.run := rfl
@[simp] theorem outX_dcf (ts : U32) (s : State) : (outX ts s).dcf = s.dcf := rfl
@[simp] theorem outX_lat (ts : U32) (s : State) : (outX ts s).lat = s.lat := rfl
@[simp] theorem outX_rk (ts : U32) (s : State) : (outX ts s).rk = s.rk := rfl
@[simp] theorem outX_lk (ts : U32) (s : State) : (outX ts s).lk = s.lk := rfl
@[simp] theorem outX_gain (ts : U32) (s : State) : (outX ts s).gain = s.gain := rfl
@[simp] theorem outX_cfg (ts : U32) (s : State) : (outX ts s).cfg = s.cfg := rfl
@[simp] theorem outX_cal (ts : U32) (s : State) : (outX ts s).cal = s.cal := rfl
@[simp] theorem outX_tim (ts : U32) (s : State) : (outX ts s).tim = s.tim := rfl
@[simp] theorem outX_agenda (ts : U32) (s : State) : (outX ts s).agenda = s.agenda := rfl
@[simp] theorem outX_opnd (ts : U32) (s : State) : (outX ts s).opnd = s.opnd := rfl
@[simp] theorem outX_res (ts : U32) (s : State) : (outX ts s).res = s.res := rfl
@[simp] theorem outX_owed (ts : U32) (s : State) : (outX ts s).owed = s.owed := rfl

@[simp] theorem lawReset_par (l : LawSel) (s : State) : (lawReset l s).par = s.par := by cases l <;> rfl
@[simp] theorem lawReset_run (l : LawSel) (s : State) : (lawReset l s).run = s.run := by cases l <;> rfl
@[simp] theorem lawReset_dcf (l : LawSel) (s : State) : (lawReset l s).dcf = s.dcf := by cases l <;> rfl
@[simp] theorem lawReset_lat (l : LawSel) (s : State) : (lawReset l s).lat = s.lat := by cases l <;> rfl
@[simp] theorem lawReset_gain (l : LawSel) (s : State) : (lawReset l s).gain = s.gain := by cases l <;> rfl
@[simp] theorem lawReset_cfg (l : LawSel) (s : State) : (lawReset l s).cfg = s.cfg := by cases l <;> rfl
@[simp] theorem lawReset_cal (l : LawSel) (s : State) : (lawReset l s).cal = s.cal := by cases l <;> rfl
@[simp] theorem lawReset_tim (l : LawSel) (s : State) : (lawReset l s).tim = s.tim := by cases l <;> rfl
@[simp] theorem lawReset_agenda (l : LawSel) (s : State) : (lawReset l s).agenda = s.agenda := by cases l <;> rfl
@[simp] theorem lawReset_env (l : LawSel) (s : State) : (lawReset l s).env = s.env := by cases l <;> rfl
@[simp] theorem lawReset_opnd (l : LawSel) (s : State) : (lawReset l s).opnd = s.opnd := by cases l <;> rfl
@[simp] theorem lawReset_res (l : LawSel) (s : State) : (lawReset l s).res = s.res := by cases l <;> rfl
@[simp] theorem lawReset_owed (l : LawSel) (s : State) : (lawReset l s).owed = s.owed := by cases l <;> rfl

@[simp] theorem lawMeas_par (l : LawSel) (v : F32) (i : Triple F32) (ts : U32) (s : State) : (lawMeas l v i ts s).par = s.par := by cases l <;> simp [lawMeas]
@[simp] theorem lawMeas_run (l : LawSel) (v : F32) (i : Triple F32) (ts : U32) (s : State) : (lawMeas l v i ts s).run = s.run := by cases l <;> simp [lawMeas]
@[simp] theorem lawMeas_dcf (l : LawSel) (v : F32) (i : Triple F32) (ts : U32) (s : State) : (lawMeas l v i ts s).dcf = s.dcf := by cases l <;> simp [lawMeas]
@[simp] theorem lawMeas_lat (l : LawSel) (v : F32) (i : Triple F32) (ts : U32) (s : State) : (lawMeas l v i ts s).lat = s.lat := by cases l <;> simp [lawMeas]
@[simp] theorem lawMeas_gain (l : LawSel) (v : F32) (i : Triple F32) (ts : U32) (s : State) : (lawMeas l v i ts s).gain = s.gain := by cases l <;> simp [lawMeas]
@[simp] theorem lawMeas_cfg (l : LawSel) (v : F32) (i : Triple F32) (ts : U32) (s : State) : (lawMeas l v i ts s).cfg = s.cfg := by cases l <;> simp [lawMeas]
@[simp] theorem lawMeas_cal (l : LawSel) (v : F32) (i : Triple F32) (ts : U32) (s : State) : (lawMeas l v i ts s).cal = s.cal := by cases l <;> simp [lawMeas]
@[simp] theorem lawMeas_tim (l : LawSel) (v : F32) (i : Triple F32) (ts : U32) (s : State) : (lawMeas l v i ts s).tim = s.tim := by cases l <;> simp [lawMeas]
@[simp] theorem lawMeas_agenda (l : LawSel) (v : F32) (i : Triple F32) (ts : U32) (s : State) : (lawMeas l v i ts s).agenda = s.agenda := by cases l <;> simp [lawMeas]
@[simp] theorem lawMeas_opnd (l : LawSel) (v : F32) (i : Triple F32) (ts : U32) (s : State) : (lawMeas l v i ts s).opnd = s.opnd := by cases l <;> simp [lawMeas]
@[simp] theorem lawMeas_res (l : LawSel) (v : F32) (i : Triple F32) (ts : U32) (s : State) : (lawMeas l v i ts s).res = s.res := by cases l <;> simp [lawMeas]
@[simp] theorem lawMeas_owed (l : LawSel) (v : F32) (i : Triple F32) (ts : U32) (s : State) : (lawMeas l v i ts s).owed = s.owed := by cases l <;> simp [lawMeas]

@[simp] theorem lawOut_par (l : LawSel) (ts : U32) (s : State) : (lawOut l ts s).par = s.par := by cases l <;> simp [lawOut]
@[simp] theorem lawOut_run (l : LawSel) (ts : U32) (s : State) : (lawOut l ts s).run = s.run := by cases l <;> simp [lawOut]
@[simp] theorem lawOut_dcf (l : LawSel) (ts : U32) (s : State) : (lawOut l ts s).dcf = s.dcf := by cases l <;> simp [lawOut]
@[simp] theorem lawOut_lat (l : LawSel) (ts : U32) (s : State) : (lawOut l ts s).lat = s.lat := by cases l <;> simp [lawOut]
@[simp] theorem lawOut_rk (l : LawSel) (ts : U32) (s : State) : (lawOut l ts s).rk = s.rk := by cases l <;> simp [lawOut]
@[simp] theorem lawOut_gain (l : LawSel) (ts : U32) (s : State) : (lawOut l ts s).gain = s.gain := by cases l <;> simp [lawOut]
@[simp] theorem lawOut_cfg (l : LawSel) (ts : U32) (s : State) : (lawOut l ts s).cfg = s.cfg := by cases l <;> simp [lawOut]
@[simp] theorem lawOut_cal (l : LawSel) (ts : U32) (s : State) : (lawOut l ts s).cal = s.cal := by cases l <;> simp [lawOut]
@[simp] theorem lawOut_tim (l : LawSel) (ts : U32) (s : State) : (lawOut l ts s).tim = s.tim := by cases l <;> simp [lawOut]
@[simp] theorem lawOut_agenda (l : LawSel) (ts : U32) (s : State) : (lawOut l ts s).agenda = s.agenda := by cases l <;> simp [lawOut]
@[simp] theorem lawOut_opnd (l : LawSel) (ts : U32) (s : State) : (lawOut l ts s).opnd = s.opnd := by cases l <;> simp [lawOut]
@[simp] theorem lawOut_res (l : LawSel) (ts : U32) (s : State) : (lawOut l ts s).res = s.res := by cases l <;> simp [lawOut]
@[simp] theorem lawOut_owed (l : LawSel) (ts : U32) (s : State) : (lawOut l ts s).owed = s.owed := by cases l <;> simp [lawOut]

/-- A law's operations touch only that law's registers (spec/43_control_law R214). -/
theorem lawMeas_rk_of_ne (l : LawSel) (h : l ≠ .rmeas) (v : F32) (i : Triple F32) (ts : U32) (s : State) :
    (lawMeas l v i ts s).rk = s.rk := by
  cases l <;> simp_all [lawMeas]
theorem lawMeas_lk_of_ne (l : LawSel) (h : l ≠ .lmeas) (v : F32) (i : Triple F32) (ts : U32) (s : State) :
    (lawMeas l v i ts s).lk = s.lk := by
  cases l <;> simp_all [lawMeas]

@[simp] theorem attach_par (l : LawSel) (s : State) : (attach l s).par = s.par := by simp [attach]
@[simp] theorem attach_dcf (l : LawSel) (s : State) : (attach l s).dcf = s.dcf := by simp [attach]
@[simp] theorem attach_lat (l : LawSel) (s : State) : (attach l s).lat = s.lat := by simp [attach]
@[simp] theorem attach_gain (l : LawSel) (s : State) : (attach l s).gain = s.gain := by simp [attach]
@[simp] theorem attach_cfg (l : LawSel) (s : State) : (attach l s).cfg = s.cfg := by simp [attach]
@[simp] theorem attach_cal (l : LawSel) (s : State) : (attach l s).cal = s.cal := by simp [attach]
@[simp] theorem attach_tim (l : LawSel) (s : State) : (attach l s).tim = s.tim := by simp [attach]
@[simp] theorem attach_agenda (l : LawSel) (s : State) : (attach l s).agenda = s.agenda := by simp [attach]
@[simp] theorem attach_env (l : LawSel) (s : State) : (attach l s).env = s.env := by simp [attach]
@[simp] theorem attach_opnd (l : LawSel) (s : State) : (attach l s).opnd = s.opnd := by simp [attach]
@[simp] theorem attach_res (l : LawSel) (s : State) : (attach l s).res = s.res := by simp [attach]
@[simp] theorem attach_owed (l : LawSel) (s : State) : (attach l s).owed = s.owed := by simp [attach]

@[simp] theorem attach_run (l : LawSel) (s : State) : (attach l s).run = { s.run with law := l, isArmed := true } := by simp [attach]

@[simp] theorem armLaw_par (l : LawSel) (s : State) : (armLaw l s).par = s.par := by unfold armLaw; split <;> simp
@[simp] theorem armLaw_dcf (l : LawSel) (s : State) : (armLaw l s).dcf = s.dcf := by unfold armLaw; split <;> simp
@[simp] theorem armLaw_lat (l : LawSel) (s : State) : (armLaw l s).lat = s.lat := by unfold armLaw; split <;> simp
@[simp] theorem armLaw_gain (l : LawSel) (s : State) : (armLaw l s).gain = s.gain := by unfold armLaw; split <;> simp
@[simp] theorem armLaw_cfg (l : LawSel) (s : State) : (armLaw l s).cfg = s.cfg := by unfold armLaw; split <;> simp
@[simp] theorem armLaw_cal (l : LawSel) (s : State) : (armLaw l s).cal = s.cal := by unfold armLaw; split <;> simp
@[simp] theorem armLaw_tim (l : LawSel) (s : State) : (armLaw l s).tim = s.tim := by unfold armLaw; split <;> simp
@[simp] theorem armLaw_agenda (l : LawSel) (s : State) : (armLaw l s).agenda = s.agenda := by unfold armLaw; split <;> simp
@[simp] theorem armLaw_opnd (l : LawSel) (s : State) : (armLaw l s).opnd = s.opnd := by unfold armLaw; split <;> simp
@[simp] theorem armLaw_res (l : LawSel) (s : State) : (armLaw l s).res = s.res := by unfold armLaw; split <;> simp
@[simp] theorem armLaw_owed (l : LawSel) (s : State) : (armLaw l s).owed = s.owed := by unfold armLaw; split <;> simp

/-- What `ARM` can do: attach and arm when the interlock holds, else only take its draw (spec/41_arm_commit R150,
R151). -/
theorem armLaw_cases (l : LawSel) (s : State) :
    (brakeNow s = true ∧ armLaw l s = attach l (brakeRead s)) ∨ (brakeNow s = false ∧ armLaw l s = brakeRead s) := by
  unfold armLaw
  cases h : brakeNow s
  · exact .inr ⟨rfl, rfl⟩
  · exact .inl ⟨rfl, rfl⟩

@[simp] theorem superviseCheck_par (s : State) : (superviseCheck s).par = s.par := by unfold superviseCheck; split <;> rfl
@[simp] theorem superviseCheck_dcf (s : State) : (superviseCheck s).dcf = s.dcf := by unfold superviseCheck; split <;> rfl
@[simp] theorem superviseCheck_lat (s : State) : (superviseCheck s).lat = s.lat := by unfold superviseCheck; split <;> rfl
@[simp] theorem superviseCheck_rk (s : State) : (superviseCheck s).rk = s.rk := by unfold superviseCheck; split <;> rfl
@[simp] theorem superviseCheck_lk (s : State) : (superviseCheck s).lk = s.lk := by unfold superviseCheck; split <;> rfl
@[simp] theorem superviseCheck_gain (s : State) : (superviseCheck s).gain = s.gain := by unfold superviseCheck; split <;> rfl
@[simp] theorem superviseCheck_cfg (s : State) : (superviseCheck s).cfg = s.cfg := by unfold superviseCheck; split <;> rfl
@[simp] theorem superviseCheck_cal (s : State) : (superviseCheck s).cal = s.cal := by unfold superviseCheck; split <;> rfl
@[simp] theorem superviseCheck_agenda (s : State) : (superviseCheck s).agenda = s.agenda := by unfold superviseCheck; split <;> rfl
@[simp] theorem superviseCheck_opnd (s : State) : (superviseCheck s).opnd = s.opnd := by unfold superviseCheck; split <;> rfl
@[simp] theorem superviseCheck_res (s : State) : (superviseCheck s).res = s.res := by unfold superviseCheck; split <;> rfl
@[simp] theorem superviseCheck_owed (s : State) : (superviseCheck s).owed = s.owed := by unfold superviseCheck; split <;> rfl

@[simp] theorem raiseMeas_par (r : MeasResult) (s : State) : (raiseMeas r s).par = s.par := by cases r <;> rfl
@[simp] theorem raiseMeas_dcf (r : MeasResult) (s : State) : (raiseMeas r s).dcf = s.dcf := by cases r <;> rfl
@[simp] theorem raiseMeas_lat (r : MeasResult) (s : State) : (raiseMeas r s).lat = s.lat := by cases r <;> rfl
@[simp] theorem raiseMeas_rk (r : MeasResult) (s : State) : (raiseMeas r s).rk = s.rk := by cases r <;> rfl
@[simp] theorem raiseMeas_lk (r : MeasResult) (s : State) : (raiseMeas r s).lk = s.lk := by cases r <;> rfl
@[simp] theorem raiseMeas_gain (r : MeasResult) (s : State) : (raiseMeas r s).gain = s.gain := by cases r <;> rfl
@[simp] theorem raiseMeas_cfg (r : MeasResult) (s : State) : (raiseMeas r s).cfg = s.cfg := by cases r <;> rfl
@[simp] theorem raiseMeas_cal (r : MeasResult) (s : State) : (raiseMeas r s).cal = s.cal := by cases r <;> rfl
@[simp] theorem raiseMeas_agenda (r : MeasResult) (s : State) : (raiseMeas r s).agenda = s.agenda := by cases r <;> rfl
@[simp] theorem raiseMeas_env (r : MeasResult) (s : State) : (raiseMeas r s).env = s.env := by cases r <;> rfl
@[simp] theorem raiseMeas_opnd (r : MeasResult) (s : State) : (raiseMeas r s).opnd = s.opnd := by cases r <;> rfl
@[simp] theorem raiseMeas_res (r : MeasResult) (s : State) : (raiseMeas r s).res = s.res := by cases r <;> rfl
@[simp] theorem raiseMeas_owed (r : MeasResult) (s : State) : (raiseMeas r s).owed = s.owed := by cases r <;> rfl

@[simp] theorem feedLaw_par (s : State) : (feedLaw s).par = s.par := by unfold feedLaw; split <;> simp
@[simp] theorem feedLaw_dcf (s : State) : (feedLaw s).dcf = s.dcf := by unfold feedLaw; split <;> simp
@[simp] theorem feedLaw_lat (s : State) : (feedLaw s).lat = s.lat := by unfold feedLaw; split <;> simp
@[simp] theorem feedLaw_gain (s : State) : (feedLaw s).gain = s.gain := by unfold feedLaw; split <;> simp
@[simp] theorem feedLaw_cfg (s : State) : (feedLaw s).cfg = s.cfg := by unfold feedLaw; split <;> simp
@[simp] theorem feedLaw_cal (s : State) : (feedLaw s).cal = s.cal := by unfold feedLaw; split <;> simp
@[simp] theorem feedLaw_agenda (s : State) : (feedLaw s).agenda = s.agenda := by unfold feedLaw; split <;> simp
@[simp] theorem feedLaw_opnd (s : State) : (feedLaw s).opnd = s.opnd := by unfold feedLaw; split <;> simp
@[simp] theorem feedLaw_res (s : State) : (feedLaw s).res = s.res := by unfold feedLaw; split <;> simp
@[simp] theorem feedLaw_owed (s : State) : (feedLaw s).owed = s.owed := by unfold feedLaw; split <;> simp

@[simp] theorem senseBody_par (i : Triple F32) (s : State) : (senseBody i s).par = s.par := by simp [senseBody]
@[simp] theorem senseBody_dcf (i : Triple F32) (s : State) : (senseBody i s).dcf = s.dcf := by simp [senseBody]
@[simp] theorem senseBody_gain (i : Triple F32) (s : State) : (senseBody i s).gain = s.gain := by simp [senseBody]
@[simp] theorem senseBody_cfg (i : Triple F32) (s : State) : (senseBody i s).cfg = s.cfg := by simp [senseBody]
@[simp] theorem senseBody_cal (i : Triple F32) (s : State) : (senseBody i s).cal = s.cal := by simp [senseBody]
@[simp] theorem senseBody_agenda (i : Triple F32) (s : State) : (senseBody i s).agenda = s.agenda := by simp [senseBody]
@[simp] theorem senseBody_opnd (i : Triple F32) (s : State) : (senseBody i s).opnd = s.opnd := by simp [senseBody]
@[simp] theorem senseBody_res (i : Triple F32) (s : State) : (senseBody i s).res = s.res := by simp [senseBody]
@[simp] theorem senseBody_owed (i : Triple F32) (s : State) : (senseBody i s).owed = s.owed := by simp [senseBody]

@[simp] theorem commitResult_par (r : Option OutResult) (s : State) : (commitResult r s).par = s.par := by unfold commitResult; split <;> [rfl; (split <;> simp); (split <;> simp)]
@[simp] theorem commitResult_dcf (r : Option OutResult) (s : State) : (commitResult r s).dcf = s.dcf := by unfold commitResult; split <;> [rfl; (split <;> simp); (split <;> simp)]
@[simp] theorem commitResult_lat (r : Option OutResult) (s : State) : (commitResult r s).lat = s.lat := by unfold commitResult; split <;> [rfl; (split <;> simp); (split <;> simp)]
@[simp] theorem commitResult_rk (r : Option OutResult) (s : State) : (commitResult r s).rk = s.rk := by unfold commitResult; split <;> [rfl; (split <;> simp); (split <;> simp)]
@[simp] theorem commitResult_lk (r : Option OutResult) (s : State) : (commitResult r s).lk = s.lk := by unfold commitResult; split <;> [rfl; (split <;> simp); (split <;> simp)]
@[simp] theorem commitResult_gain (r : Option OutResult) (s : State) : (commitResult r s).gain = s.gain := by unfold commitResult; split <;> [rfl; (split <;> simp); (split <;> simp)]
@[simp] theorem commitResult_cfg (r : Option OutResult) (s : State) : (commitResult r s).cfg = s.cfg := by unfold commitResult; split <;> [rfl; (split <;> simp); (split <;> simp)]
@[simp] theorem commitResult_cal (r : Option OutResult) (s : State) : (commitResult r s).cal = s.cal := by unfold commitResult; split <;> [rfl; (split <;> simp); (split <;> simp)]
@[simp] theorem commitResult_agenda (r : Option OutResult) (s : State) : (commitResult r s).agenda = s.agenda := by unfold commitResult; split <;> [rfl; (split <;> simp); (split <;> simp)]
@[simp] theorem commitResult_opnd (r : Option OutResult) (s : State) : (commitResult r s).opnd = s.opnd := by unfold commitResult; split <;> [rfl; (split <;> simp); (split <;> simp)]
@[simp] theorem commitResult_res (r : Option OutResult) (s : State) : (commitResult r s).res = s.res := by unfold commitResult; split <;> [rfl; (split <;> simp); (split <;> simp)]
@[simp] theorem commitResult_owed (r : Option OutResult) (s : State) : (commitResult r s).owed = s.owed := by unfold commitResult; split <;> [rfl; (split <;> simp); (split <;> simp)]

@[simp] theorem commitTail_par (r : Option OutResult) (s : State) : (commitTail r s).par = s.par := by simp [commitTail]
@[simp] theorem commitTail_dcf (r : Option OutResult) (s : State) : (commitTail r s).dcf = s.dcf := by simp [commitTail]
@[simp] theorem commitTail_rk (r : Option OutResult) (s : State) : (commitTail r s).rk = s.rk := by simp [commitTail]
@[simp] theorem commitTail_lk (r : Option OutResult) (s : State) : (commitTail r s).lk = s.lk := by simp [commitTail]
@[simp] theorem commitTail_gain (r : Option OutResult) (s : State) : (commitTail r s).gain = s.gain := by simp [commitTail]
@[simp] theorem commitTail_cfg (r : Option OutResult) (s : State) : (commitTail r s).cfg = s.cfg := by simp [commitTail]
@[simp] theorem commitTail_cal (r : Option OutResult) (s : State) : (commitTail r s).cal = s.cal := by simp [commitTail]
@[simp] theorem commitTail_agenda (r : Option OutResult) (s : State) : (commitTail r s).agenda = s.agenda := by simp [commitTail]
@[simp] theorem commitTail_opnd (r : Option OutResult) (s : State) : (commitTail r s).opnd = s.opnd := by simp [commitTail]
@[simp] theorem commitTail_res (r : Option OutResult) (s : State) : (commitTail r s).res = s.res := by simp [commitTail]
@[simp] theorem commitTail_owed (r : Option OutResult) (s : State) : (commitTail r s).owed = s.owed := by simp [commitTail]

@[simp] theorem commitBody_par (i : Triple F32) (s : State) : (commitBody i s).par = s.par := by simp [commitBody]
@[simp] theorem commitBody_rk (i : Triple F32) (s : State) : (commitBody i s).rk = s.rk := by simp [commitBody]
@[simp] theorem commitBody_gain (i : Triple F32) (s : State) : (commitBody i s).gain = s.gain := by simp [commitBody]
@[simp] theorem commitBody_cfg (i : Triple F32) (s : State) : (commitBody i s).cfg = s.cfg := by simp [commitBody]
@[simp] theorem commitBody_cal (i : Triple F32) (s : State) : (commitBody i s).cal = s.cal := by simp [commitBody]
@[simp] theorem commitBody_agenda (i : Triple F32) (s : State) : (commitBody i s).agenda = s.agenda := by simp [commitBody]
@[simp] theorem commitBody_opnd (i : Triple F32) (s : State) : (commitBody i s).opnd = s.opnd := by simp [commitBody]
@[simp] theorem commitBody_res (i : Triple F32) (s : State) : (commitBody i s).res = s.res := by simp [commitBody]
@[simp] theorem commitBody_owed (i : Triple F32) (s : State) : (commitBody i s).owed = s.owed := by simp [commitBody]

@[simp] theorem fallback_par (s : State) : (fallback s).par = s.par := by simp [fallback]
@[simp] theorem fallback_dcf (s : State) : (fallback s).dcf = s.dcf := by simp [fallback]
@[simp] theorem fallback_lat (s : State) : (fallback s).lat = s.lat := by simp [fallback]
@[simp] theorem fallback_rk (s : State) : (fallback s).rk = s.rk := by simp [fallback]
@[simp] theorem fallback_lk (s : State) : (fallback s).lk = s.lk := by simp [fallback]
@[simp] theorem fallback_gain (s : State) : (fallback s).gain = s.gain := by simp [fallback]
@[simp] theorem fallback_cfg (s : State) : (fallback s).cfg = s.cfg := by simp [fallback]
@[simp] theorem fallback_cal (s : State) : (fallback s).cal = s.cal := by simp [fallback]
@[simp] theorem fallback_agenda (s : State) : (fallback s).agenda = s.agenda := by simp [fallback]
@[simp] theorem fallback_opnd (s : State) : (fallback s).opnd = s.opnd := by simp [fallback]
@[simp] theorem fallback_res (s : State) : (fallback s).res = s.res := by simp [fallback]
@[simp] theorem fallback_owed (s : State) : (fallback s).owed = s.owed := by simp [fallback]

@[simp] theorem runRole_par (r : Role) (adc : Triple U32) (s : State) : (runRole r adc s).par = s.par := by cases r <;> simp [runRole]
@[simp] theorem runRole_gain (r : Role) (adc : Triple U32) (s : State) : (runRole r adc s).gain = s.gain := by cases r <;> simp [runRole]
@[simp] theorem runRole_cfg (r : Role) (adc : Triple U32) (s : State) : (runRole r adc s).cfg = s.cfg := by cases r <;> simp [runRole]
@[simp] theorem runRole_cal (r : Role) (adc : Triple U32) (s : State) : (runRole r adc s).cal = s.cal := by cases r <;> simp [runRole]
@[simp] theorem runRole_agenda (r : Role) (adc : Triple U32) (s : State) : (runRole r adc s).agenda = s.agenda := by cases r <;> simp [runRole]
@[simp] theorem runRole_opnd (r : Role) (adc : Triple U32) (s : State) : (runRole r adc s).opnd = s.opnd := by cases r <;> simp [runRole]
@[simp] theorem runRole_res (r : Role) (adc : Triple U32) (s : State) : (runRole r adc s).res = s.res := by cases r <;> simp [runRole]
@[simp] theorem runRole_owed (r : Role) (adc : Triple U32) (s : State) : (runRole r adc s).owed = s.owed := by cases r <;> simp [runRole]

@[simp] theorem directCycle_par (adc : Triple U32) (s : State) : (directCycle adc s).par = s.par := by unfold directCycle; split <;> simp
@[simp] theorem directCycle_gain (adc : Triple U32) (s : State) : (directCycle adc s).gain = s.gain := by unfold directCycle; split <;> simp
@[simp] theorem directCycle_cfg (adc : Triple U32) (s : State) : (directCycle adc s).cfg = s.cfg := by unfold directCycle; split <;> simp
@[simp] theorem directCycle_cal (adc : Triple U32) (s : State) : (directCycle adc s).cal = s.cal := by unfold directCycle; split <;> simp
@[simp] theorem directCycle_agenda (adc : Triple U32) (s : State) : (directCycle adc s).agenda = s.agenda := by unfold directCycle; split <;> simp
@[simp] theorem directCycle_opnd (adc : Triple U32) (s : State) : (directCycle adc s).opnd = s.opnd := by unfold directCycle; split <;> simp
@[simp] theorem directCycle_res (adc : Triple U32) (s : State) : (directCycle adc s).res = s.res := by unfold directCycle; split <;> simp
@[simp] theorem directCycle_owed (adc : Triple U32) (s : State) : (directCycle adc s).owed = s.owed := by unfold directCycle; split <;> simp

@[simp] theorem updCycle_par (adc : Triple U32) (s : State) : (updCycle adc s).par = s.par := by simp [updCycle]
@[simp] theorem updCycle_gain (adc : Triple U32) (s : State) : (updCycle adc s).gain = s.gain := by simp [updCycle]
@[simp] theorem updCycle_cfg (adc : Triple U32) (s : State) : (updCycle adc s).cfg = s.cfg := by simp [updCycle]
@[simp] theorem updCycle_cal (adc : Triple U32) (s : State) : (updCycle adc s).cal = s.cal := by simp [updCycle]
@[simp] theorem updCycle_agenda (adc : Triple U32) (s : State) : (updCycle adc s).agenda = s.agenda := by simp [updCycle]
@[simp] theorem updCycle_opnd (adc : Triple U32) (s : State) : (updCycle adc s).opnd = s.opnd := by simp [updCycle]
@[simp] theorem updCycle_res (adc : Triple U32) (s : State) : (updCycle adc s).res = s.res := by simp [updCycle]
@[simp] theorem updCycle_owed (adc : Triple U32) (s : State) : (updCycle adc s).owed = s.owed := by simp [updCycle]

@[simp] theorem startR_par (s : State) : (startR s).par = s.par := by simp [startR]
@[simp] theorem startR_dcf (s : State) : (startR s).dcf = s.dcf := by simp [startR]
@[simp] theorem startR_lat (s : State) : (startR s).lat = s.lat := by simp [startR]
@[simp] theorem startR_gain (s : State) : (startR s).gain = s.gain := by simp [startR]
@[simp] theorem startR_cfg (s : State) : (startR s).cfg = s.cfg := by simp [startR]
@[simp] theorem startR_tim (s : State) : (startR s).tim = s.tim := by simp [startR]
@[simp] theorem startR_agenda (s : State) : (startR s).agenda = s.agenda := by simp [startR]
@[simp] theorem startR_opnd (s : State) : (startR s).opnd = s.opnd := by simp [startR]
@[simp] theorem startR_res (s : State) : (startR s).res = s.res := by simp [startR]
@[simp] theorem startR_owed (s : State) : (startR s).owed = s.owed := by simp [startR]

@[simp] theorem startL_par (s : State) : (startL s).par = s.par := by simp [startL]
@[simp] theorem startL_dcf (s : State) : (startL s).dcf = s.dcf := by simp [startL]
@[simp] theorem startL_lat (s : State) : (startL s).lat = s.lat := by simp [startL]
@[simp] theorem startL_gain (s : State) : (startL s).gain = s.gain := by simp [startL]
@[simp] theorem startL_cfg (s : State) : (startL s).cfg = s.cfg := by simp [startL]
@[simp] theorem startL_tim (s : State) : (startL s).tim = s.tim := by simp [startL]
@[simp] theorem startL_agenda (s : State) : (startL s).agenda = s.agenda := by simp [startL]
@[simp] theorem startL_opnd (s : State) : (startL s).opnd = s.opnd := by simp [startL]
@[simp] theorem startL_res (s : State) : (startL s).res = s.res := by simp [startL]
@[simp] theorem startL_owed (s : State) : (startL s).owed = s.owed := by simp [startL]

@[simp] theorem cfgWrite_par (n : Nat) (v : U32) (s : State) : (cfgWrite n v s).par = s.par := by unfold cfgWrite; split <;> rfl
@[simp] theorem cfgWrite_run (n : Nat) (v : U32) (s : State) : (cfgWrite n v s).run = s.run := by unfold cfgWrite; split <;> rfl
@[simp] theorem cfgWrite_dcf (n : Nat) (v : U32) (s : State) : (cfgWrite n v s).dcf = s.dcf := by unfold cfgWrite; split <;> rfl
@[simp] theorem cfgWrite_lat (n : Nat) (v : U32) (s : State) : (cfgWrite n v s).lat = s.lat := by unfold cfgWrite; split <;> rfl
@[simp] theorem cfgWrite_rk (n : Nat) (v : U32) (s : State) : (cfgWrite n v s).rk = s.rk := by unfold cfgWrite; split <;> rfl
@[simp] theorem cfgWrite_lk (n : Nat) (v : U32) (s : State) : (cfgWrite n v s).lk = s.lk := by unfold cfgWrite; split <;> rfl
@[simp] theorem cfgWrite_gain (n : Nat) (v : U32) (s : State) : (cfgWrite n v s).gain = s.gain := by unfold cfgWrite; split <;> rfl
@[simp] theorem cfgWrite_cal (n : Nat) (v : U32) (s : State) : (cfgWrite n v s).cal = s.cal := by unfold cfgWrite; split <;> rfl
@[simp] theorem cfgWrite_tim (n : Nat) (v : U32) (s : State) : (cfgWrite n v s).tim = s.tim := by unfold cfgWrite; split <;> rfl
@[simp] theorem cfgWrite_out (n : Nat) (v : U32) (s : State) : (cfgWrite n v s).out = s.out := by unfold cfgWrite; split <;> rfl
@[simp] theorem cfgWrite_agenda (n : Nat) (v : U32) (s : State) : (cfgWrite n v s).agenda = s.agenda := by unfold cfgWrite; split <;> rfl
@[simp] theorem cfgWrite_env (n : Nat) (v : U32) (s : State) : (cfgWrite n v s).env = s.env := by unfold cfgWrite; split <;> rfl
@[simp] theorem cfgWrite_opnd (n : Nat) (v : U32) (s : State) : (cfgWrite n v s).opnd = s.opnd := by unfold cfgWrite; split <;> rfl
@[simp] theorem cfgWrite_res (n : Nat) (v : U32) (s : State) : (cfgWrite n v s).res = s.res := by unfold cfgWrite; split <;> rfl
@[simp] theorem cfgWrite_owed (n : Nat) (v : U32) (s : State) : (cfgWrite n v s).owed = s.owed := by unfold cfgWrite; split <;> rfl

@[simp] theorem concludeMeas_par (n : Nat) (k : ErrorKind) (op : U8) (r : BitVec 2) (v : F32) (ok : Bool) (s : State) : (concludeMeas n k op r v ok s).par = s.par := by simp [concludeMeas]
@[simp] theorem concludeMeas_dcf (n : Nat) (k : ErrorKind) (op : U8) (r : BitVec 2) (v : F32) (ok : Bool) (s : State) : (concludeMeas n k op r v ok s).dcf = s.dcf := by simp [concludeMeas]
@[simp] theorem concludeMeas_lat (n : Nat) (k : ErrorKind) (op : U8) (r : BitVec 2) (v : F32) (ok : Bool) (s : State) : (concludeMeas n k op r v ok s).lat = s.lat := by simp [concludeMeas]
@[simp] theorem concludeMeas_rk (n : Nat) (k : ErrorKind) (op : U8) (r : BitVec 2) (v : F32) (ok : Bool) (s : State) : (concludeMeas n k op r v ok s).rk = s.rk := by simp [concludeMeas]
@[simp] theorem concludeMeas_lk (n : Nat) (k : ErrorKind) (op : U8) (r : BitVec 2) (v : F32) (ok : Bool) (s : State) : (concludeMeas n k op r v ok s).lk = s.lk := by simp [concludeMeas]
@[simp] theorem concludeMeas_gain (n : Nat) (k : ErrorKind) (op : U8) (r : BitVec 2) (v : F32) (ok : Bool) (s : State) : (concludeMeas n k op r v ok s).gain = s.gain := by simp [concludeMeas]
@[simp] theorem concludeMeas_agenda (n : Nat) (k : ErrorKind) (op : U8) (r : BitVec 2) (v : F32) (ok : Bool) (s : State) : (concludeMeas n k op r v ok s).agenda = s.agenda := by simp [concludeMeas]
@[simp] theorem concludeMeas_env (n : Nat) (k : ErrorKind) (op : U8) (r : BitVec 2) (v : F32) (ok : Bool) (s : State) : (concludeMeas n k op r v ok s).env = s.env := by simp [concludeMeas]
@[simp] theorem concludeMeas_opnd (n : Nat) (k : ErrorKind) (op : U8) (r : BitVec 2) (v : F32) (ok : Bool) (s : State) : (concludeMeas n k op r v ok s).opnd = s.opnd := by simp [concludeMeas]
@[simp] theorem concludeMeas_res (n : Nat) (k : ErrorKind) (op : U8) (r : BitVec 2) (v : F32) (ok : Bool) (s : State) : (concludeMeas n k op r v ok s).res = s.res := by simp [concludeMeas]
@[simp] theorem concludeMeas_owed (n : Nat) (k : ErrorKind) (op : U8) (r : BitVec 2) (v : F32) (ok : Bool) (s : State) : (concludeMeas n k op r v ok s).owed = s.owed := by simp [concludeMeas]

end Sys2Proof.Machine
end

