-- ==== Sys2Proof/Laws/PerInstr.lean ====
section
/-!
SUPPORT. Statements about the syntax of every operation, one lemma per constructor. Family `EncodesRow`: the encoder
gives an operation the width and the code of its row of the opcode table.
-/

namespace Sys2Proof.Laws.EncodesRow

/-- The word of `i` has the width and the code of `i`'s row. -/
def Statement (i : Instr) : Prop := wordRow (encode i) = tableRow i

theorem nop : Statement .nop := rfl
theorem arm (sel : U8) : Statement (.arm sel) := by
  simp [Statement, encode, cmdWord, wordRow, cmdOp_append, tableRow]
theorem disarm : Statement .disarm := rfl
theorem disarmErr (sel : U8) : Statement (.disarmErr sel) := by
  simp [Statement, encode, cmdWord, wordRow, cmdOp_append, tableRow]
theorem clrErr : Statement .clrErr := rfl
theorem evalLim : Statement .evalLim := rfl
theorem maxTorque : Statement .maxTorque := rfl
theorem updGains : Statement .updGains := rfl
theorem calRun : Statement .calRun := rfl
theorem calR : Statement .calR := rfl
theorem calL : Statement .calL := rfl
theorem calPoll : Statement .calPoll := rfl
theorem cfgWr (sel : U8) (data : U32) : Statement (.cfgWr sel data) := by
  simp [Statement, encode, cmdWord, wordRow, cmdOp_append, tableRow]
theorem regRd (sel : U8) : Statement (.regRd sel) := by
  simp [Statement, encode, cmdWord, wordRow, cmdOp_append, tableRow]
theorem getR : Statement .getR := rfl
theorem getL : Statement .getL := rfl
theorem upd (adcA adcB adcC : U32) : Statement (.upd adcA adcB adcC) := rfl
theorem timEvent : Statement .timEvent := rfl
theorem applyPwm : Statement .applyPwm := rfl
theorem sanitize : Statement .sanitize := rfl
theorem adc2amp : Statement .adc2amp := rfl
theorem infer : Statement .infer := rfl
theorem dcfUpdate : Statement .dcfUpdate := rfl
theorem dcfValid : Statement .dcfValid := rfl
theorem correct : Statement .correct := rfl
theorem leakChk : Statement .leakChk := rfl
theorem magChk : Statement .magChk := rfl
theorem ibusChk : Statement .ibusChk := rfl
theorem duty2ccr : Statement .duty2ccr := rfl
theorem lawResetR : Statement .lawResetR := rfl
theorem lawMeasR : Statement .lawMeasR := rfl
theorem lawOutR : Statement .lawOutR := rfl
theorem lawResetL : Statement .lawResetL := rfl
theorem lawMeasL : Statement .lawMeasL := rfl
theorem lawOutL : Statement .lawOutL := rfl
theorem lawResetX : Statement .lawResetX := rfl
theorem lawMeasX : Statement .lawMeasX := rfl
theorem lawOutX : Statement .lawOutX := rfl

end Sys2Proof.Laws.EncodesRow
end

