-- ==== Sys2Proof/Laws/Spec.lean ====
section
/-!
SUPPORT. What each composed operation does, said once: a disarm and a fault entry as one record update, the classes of
ADC codes and motor types as conditions, the latch arbiter and the cycle with no event inside, the exits of a poll, and the turns of a step.
-/

namespace Sys2Proof.Machine

/-- Two states with equal fields are equal. -/
theorem state_eq_of_fields (s t : State) (h1 : s.par = t.par) (h2 : s.run = t.run) (h3 : s.dcf = t.dcf)
    (h4 : s.lat = t.lat) (h5 : s.rk = t.rk) (h6 : s.lk = t.lk) (h7 : s.gain = t.gain) (h8 : s.cfg = t.cfg)
    (h9 : s.cal = t.cal) (h10 : s.tim = t.tim) (h11 : s.out = t.out) (h12 : s.agenda = t.agenda) (h13 : s.env = t.env)
    (h14 : s.opnd = t.opnd) (h15 : s.res = t.res) (h16 : s.owed = t.owed) : s = t := by
  cases s
  cases t
  simp_all

/-- A disarm changes nothing of a block that is safely off (spec/41_arm_commit R158, R159). -/
theorem disarm_of_safeOff (s : State) (h : s.safeOff) : disarm s = s := by
  obtain ⟨p, ⟨ia, l, e, ts, cd⟩, d, la, rk, lk, g, cf, ca, ⟨c1, c2, ao, mo, ui, di⟩, o, ag, en, op, re, ow⟩ := s
  obtain ⟨h1, h2, h3, h4⟩ := h
  simp only at h1 h2 h3 h4
  subst h1 h2 h3 h4
  simp [disarm]

/-- A fault of a block that is safely off only sets its bit (spec/41_arm_commit R160). -/
theorem raiseIf_of_safeOff (c : Bool) (k : ErrorKind) (s : State) (h : s.safeOff) :
    raiseIf c k s = { s with run := { s.run with error := if c then s.run.error ||| kindMask k else s.run.error } } := by
  cases c
  · rfl
  · exact disarm_of_safeOff _ h

/-- A sound state without a law is safely off (spec/10_state R36; spec/41_arm_commit R159). -/
theorem safeOff_of_sound (s : State) (h : s.sound) (hl : s.run.law = .none) : s.safeOff := by
  obtain ⟨h1, _, ⟨h3, h4⟩, _⟩ := h
  have ha : s.run.isArmed = false := by
    by_contra hc
    exact h1.mp (by simpa using hc) hl
  have h2 : s.tim.aoe = false := by
    by_contra hc
    simp [h4 (by simpa using hc)] at ha
  have h5 : s.tim.moe = false := by
    by_contra hc
    simp [h3 (by simpa using hc)] at h2
  exact ⟨h5, h2, hl, ha⟩

/-- The motor type as a condition on the register (spec/30_encoding R92). -/
theorem motorType_eq (s : State) :
    motorType s =
      if s.cfg[0x00] = 0#32 then .highCurrent else if s.cfg[0x00] = 1#32 then .gimbal
      else if s.cfg[0x00] = 2#32 then .acim else .reserved := by
  simp only [motorType]
  split <;> simp_all

/-- A lane saturates: sensed, not the sentinel, outside the inclusive band (spec/42_acquisition_filter R182). -/
theorem saturates_eq (p : Params) (sensed : Bool) (c : U32) :
    saturates p sensed c =
      (sensed && decide (c ≠ p.adcInvalid) && (decide (c < p.adcLower) || decide (p.adcUpper < c))) := by
  simp only [saturates, adcClass]
  by_cases h1 : c = p.adcInvalid
  · simp [h1]
  · by_cases h2 : p.adcLower ≤ c ∧ c ≤ p.adcUpper
    · simp [h1, h2, BitVec.not_lt.mpr h2.1, BitVec.not_lt.mpr h2.2]
    · have h3 : c < p.adcLower ∨ p.adcUpper < c := by
        by_cases h4 : p.adcLower ≤ c
        · exact .inr (BitVec.not_le.mp fun h => h2 ⟨h4, h⟩)
        · exact .inl (BitVec.not_le.mp h4)
      have h5 : (decide (c < p.adcLower) || decide (p.adcUpper < c)) = true := by simpa using h3
      rw [h5]
      simp [h1, h2]

/-- Reading the number of events at a boundary keeps a quiet environment quiet. -/
theorem timRead_quiet (s : State) (h : s.quiet) : (timRead s).quiet := by
  show s.env.timEvents.next = _
  rw [h]
  rfl

/-- The latch arbiter with no event inside it (spec/41_arm_commit R162): the micro-steps, each boundary a draw. -/
theorem latchPwm_quiet (c : Triple U16) (t : Bool) (s : State) (h : s.quiet) :
    latchPwm c t s =
      testLate (timRead (setAoe t (timRead (writeShC c.c (timRead (writeShB c.b
        (timRead (writeShA c.a (timRead (testInterlock (timRead s)))))))))))  := by
  have hA : ∀ x : State, x.quiet → timSlot (writeShA c.a x) = timRead (writeShA c.a x) ∧
      (timRead (writeShA c.a x)).quiet := fun x hx => ⟨timSlot_quiet (writeShA c.a x) hx, timRead_quiet x hx⟩
  have hB : ∀ x : State, x.quiet → timSlot (writeShB c.b x) = timRead (writeShB c.b x) ∧
      (timRead (writeShB c.b x)).quiet := fun x hx => ⟨timSlot_quiet (writeShB c.b x) hx, timRead_quiet x hx⟩
  have hC : ∀ x : State, x.quiet → timSlot (writeShC c.c x) = timRead (writeShC c.c x) ∧
      (timRead (writeShC c.c x)).quiet := fun x hx => ⟨timSlot_quiet (writeShC c.c x) hx, timRead_quiet x hx⟩
  have hS : ∀ x : State, x.quiet → timSlot (setAoe t x) = timRead (setAoe t x) := fun x hx =>
    timSlot_quiet _ (show (setAoe t x).env.timEvents = _ from (setAoe_env t x).symm ▸ hx)
  have hI : (testInterlock (timRead s)).quiet := by
    show (testInterlock (timRead s)).env.timEvents = _
    rw [testInterlock_env]
    exact timRead_quiet s h
  have h2 := timRead_quiet _ hI
  have h3 := hA _ h2
  have h4 := hB _ h3.2
  have h5 := hC _ h4.2
  rw [latchPwm, timSlot_quiet s h, timSlot_quiet _ hI, h3.1, h4.1, h5.1, hS _ h5.2]

/-- A `SENSE` cycle with no event inside it (spec/40_update_cycle R121). -/
theorem updCycle_sense (adc : Triple U32) (s : State) (h : s.quiet) (hd : s.tim.dir = false)
    (hc : s.run.countingDown = true) :
    updCycle adc s =
      senseBody (phaseCurrents s.par adc) (sanFault adc (setDirection false (timRead (beginCycle s)))) := by
  have hd' : (timRead (beginCycle s)).tim.dir = false := hd
  have hc' : (timRead (beginCycle s)).run.countingDown = true := hc
  rw [updCycle, timSlot_quiet (beginCycle s) h, directCycle, hd', hc']
  rfl

/-- A `COMMIT` cycle with no event inside it (spec/40_update_cycle R121). -/
theorem updCycle_commit (adc : Triple U32) (s : State) (h : s.quiet) (hd : s.tim.dir = true)
    (hc : s.run.countingDown = false) :
    updCycle adc s =
      commitBody (phaseCurrents s.par adc) (sanFault adc (fallback (setDirection true (timRead (beginCycle s))))) := by
  have hd' : (timRead (beginCycle s)).tim.dir = true := hd
  have hc' : (timRead (beginCycle s)).run.countingDown = false := hc
  rw [updCycle, timSlot_quiet (beginCycle s) h, directCycle, hd', hc']
  rfl

/-- A `SENSE` body without a law feeds nothing (spec/40_update_cycle R128). -/
theorem feedLaw_none (s : State) (h : s.run.law = .none) : feedLaw s = s := by simp [feedLaw, h]

/-- The four ways a poll of a running loop can go (spec/45_calibration R283). -/
theorem pollLoop_cases (s : State) :
    (pollCeiling s ≤ s.cal.cnt ∧ pollLoop s = finish 0#2 s) ∨
    (¬ pollCeiling s ≤ s.cal.cnt ∧ reqNow s = true ∧ pollLoop s = finish 1#2 (reqRead s)) ∨
    (¬ pollCeiling s ≤ s.cal.cnt ∧ reqNow s = false ∧ s.run.isArmed = false ∧
      pollLoop s = finish 2#2 (reqRead s)) ∨
    (¬ pollCeiling s ≤ s.cal.cnt ∧ reqNow s = false ∧ s.run.isArmed = true ∧
      pollLoop s = { reqRead s with cal := { s.cal with cnt := s.cal.cnt + 1 } }) := by
  unfold pollLoop
  by_cases h1 : pollCeiling s ≤ s.cal.cnt
  · simp [h1]
  · cases h2 : reqNow s <;> cases h3 : s.run.isArmed <;> simp [h1]

/-- The three turns a step can take (spec/20_memory R78; spec/60_exceptions R304): the cycle that is due, the next
arrival, or nothing. -/
theorem nextTurn_cases (s : State) :
    (cycleDue s = true ∧ nextTurn s = some (.upd96 (eventWordNow s), takeDue s)) ∨
    (cycleDue s = false ∧ ∃ a rest, s.agenda = a :: rest ∧ nextTurn s = some (a, takeArrival a s)) ∨
    (cycleDue s = false ∧ s.agenda = [] ∧ nextTurn s = none) := by
  unfold nextTurn
  cases h : cycleDue s
  · cases ha : s.agenda with
    | nil => simp
    | cons a rest => simp
  · simp

/-- Everything a step that answers a next state can do: run the cycle that is due, run the next arrival's operation,
reject a reserved command word, drop a word without an event, or nothing. -/
theorem step_cases (s t : State) (h : step s = .next t) :
    (cycleDue s = true ∧ exec (decodeUpd (eventWordNow s)) (takeDue s) = .next t) ∨
    (cycleDue s = false ∧ ∃ a rest, s.agenda = a :: rest ∧
      ((enabled a (takeArrival a s) = false ∧ t = takeArrival a s) ∨
       (enabled a (takeArrival a s) = true ∧ ∃ i, decode (arrivalWord a) = .ok i ∧
          exec i (takeArrival a s) = .next t) ∨
       (enabled a (takeArrival a s) = true ∧ ∃ op, decode (arrivalWord a) = .error (.reservedOp op) ∧
          t = reject op (takeArrival a s)))) ∨
    (cycleDue s = false ∧ s.agenda = [] ∧ t = s) := by
  unfold step at h
  rcases nextTurn_cases s with ⟨hd, hn⟩ | ⟨hd, a, rest, ha, hn⟩ | ⟨hd, ha, hn⟩
  · have hu : s.tim.uif = true := by
      simp only [cycleDue, Bool.and_eq_true] at hd
      exact hd.1
    refine .inl ⟨hd, ?_⟩
    simpa [hn, enabled, hu, runArrival, arrivalWord, decode] using h
  · refine .inr (.inl ⟨hd, a, rest, ha, ?_⟩)
    rw [hn] at h
    cases he : enabled a (takeArrival a s)
    · exact .inl ⟨rfl, by simpa [he, eq_comm] using h⟩
    · simp only [he, if_true, runArrival] at h
      split at h
      · next i hi => exact .inr (.inl ⟨rfl, i, hi, h⟩)
      · next op ho => exact .inr (.inr ⟨rfl, op, ho, by simpa [eq_comm] using h⟩)
      · cases h
  · exact .inr (.inr ⟨hd, ha, by simpa [hn, eq_comm] using h⟩)

/-- A cycle without an `APPLY_PWM` gets no late event (log 22). -/
theorem lateEvents_none (k : Fin 6) (n : Nat) (h : n ≤ 6) : lateEvents k n = held 0 := by simp [lateEvents, h]

end Sys2Proof.Machine
end

