-- ==== Sys2Proof/Tests/Slice0.lean ====
section
/-!
SUPPORT. Tests. Expected results are the vectors of spec/95_test_vectors section 3 (numbers F30 to F60), or words
written out from the tables of spec/30_encoding; the test instance is that of its section 1. Last, for each obligation
with hypotheses, a state and operands that meet them together.
-/

namespace Sys2Proof.Tests

open Sys2Proof.Machine Sys2Proof.Claims

/-! The test instance. -/

/-- The binary32 datum of a pattern. -/
def f (w : Nat) : F32 := F32.ofBits (BitVec.ofNat 32 w)

/-- Section 1.1. -/
def par : Params :=
  { tUpdTicks := 64, tickHz := f 0x44800000, pwmFull := 4096, revGain := f 0x3E800000, shuntG := f 0x44800000,
    adcVPerLsb := f 0x3A800000, senseMask := 0b111#3, dcCalibMax := F32.one, hwLimI := f 0x42700000,
    hwLimV := .scaled F32.half, nLim := 0 }

/-- Section 1.2, and no timer event inside a cycle. -/
def env : Env :=
  { Env.free with
    vbus := held (f 0x41800000), brakeOk := held true, supDisarm := held false, reqChanged := held false,
    rotorFlux := held F32.qnan, timEvents := held 0, extMeas := held .success,
    extOut := held (.duty ⟨f 0x3F400000, f 0x3E800000, F32.half⟩),
    eventWord := held 0x00000801000007FF00000800#96 }

/-- Section 1.3. -/
def cfg : Vector U32 16 :=
  ⟨#[0x00000000, 0x41200000, 0x3E800000, 0x3D4CCCCD, 0x447A0000, 0x00000000, 0x00000000, 0x40800000, 0x41000000,
     0x3E000000, 0x3E000000, 0xC2C80000, 0x42C80000, 0x41000000, 0x42700000, 0x00000000], rfl⟩

/-- Section 3, "std". -/
def std : State := { State.resetWith par Config.launch with cfg := cfg, env := env }

/-- Section 3, "P1-end", in the fields the tests read: the filter valid, the next event starts a `COMMIT` cycle. -/
def warm : State :=
  { std with
    dcf := { off := ⟨f 0x3E800000, f 0xBE800000, F32.zero⟩, since := F32.one }
    lat := { iMeas := ⟨F32.two, f 0xBFC00000, f 0xBF000000⟩, iLeak := F32.zero, iBus := F32.zero,
             iLimEff := f 0x41200000 } }

/-- Armed with law `l`, the outputs off. -/
def armed (l : LawSel) (s : State) : State := { s with run := { s.run with law := l, isArmed := true } }

/-- Armed with the latch set and the outputs driven. -/
def driving (s : State) : State := { s with tim := { s.tim with aoe := true, moe := true } }

/-- An event just occurred: the flag pending, the direction toggled. -/
def ticked (s : State) : State := timEvent s

/-- The next event starts a `SENSE` cycle. -/
def senseNext (s : State) : State :=
  { s with run := { s.run with countingDown := true }, tim := { s.tim with dir := true } }

/-- The operand latches of a micro-operation. -/
def withOpnd (o : Operands) (s : State) : State := { s with opnd := o }

/-- The state an operation leads to. -/
def after (i : Instr) (s : State) : State :=
  match exec i s with
  | .next t => t
  | .fault _ | .refused _ => s

/-- A `TICK` (spec/30_encoding R107). -/
def tick (a b c : U32) (s : State) : State := after (.upd a b c) (after .timEvent s)

/-- The state a sequence of lines leads to (spec/30_encoding R106). -/
def afterLines (l : List Line) (s : State) : State :=
  match runLines l s with
  | .next t => t
  | .fault _ | .refused _ => s

/-! WellFormed refuses an ill-formed term at each check. -/

theorem test_wf_arm : (Instr.arm 0#8).wf = false ∧ (Instr.arm 4#8).wf = false ∧ (Instr.arm 3#8).wf = true := by decide
theorem test_wf_disarmErr : (Instr.disarmErr 13#8).wf = false ∧ (Instr.disarmErr 12#8).wf = true := by decide
theorem test_wf_cfgWr : (Instr.cfgWr 0x10#8 0#32).wf = false ∧ (Instr.cfgWr 0x0F#8 0#32).wf = true := by decide
theorem test_wf_regRd : (Instr.regRd 0x30#8).wf = false ∧ (Instr.regRd 0x2F#8).wf = true := by decide
theorem test_wf_par : par.wf = true ∧ Params.wf { par with pwmFull := 1 } = false ∧
    Params.wf { par with adcLower := 3724 } = false := by decide
/-- R10: `TICK_HZ` is positive. -/
theorem test_wf_tickHz : Params.wf { par with tickHz := F32.zero } = false ∧
    Params.wf { par with tickHz := F32.minusOne } = false ∧ Params.wf { par with tickHz := F32.qnan } = false := by decide

/-! Every constructor's decoding, on a word written out from R94 to R97. -/

theorem test_decode_control :
    decodeTableWord 48 0x000000000000 = some .nop ∧ decodeTableWord 48 0x010200000000 = some (.arm 2#8) ∧
    decodeTableWord 48 0x020000000000 = some .disarm ∧ decodeTableWord 48 0x030C00000000 = some (.disarmErr 12#8) ∧
    decodeTableWord 48 0x040000000000 = some .clrErr := by decide

theorem test_decode_limits :
    decodeTableWord 48 0x050000000000 = some .evalLim ∧ decodeTableWord 48 0x060000000000 = some .maxTorque := by decide

theorem test_decode_calibration :
    decodeTableWord 48 0x070000000000 = some .updGains ∧ decodeTableWord 48 0x100000000000 = some .calRun ∧
    decodeTableWord 48 0x110000000000 = some .calR ∧ decodeTableWord 48 0x120000000000 = some .calL ∧
    decodeTableWord 48 0x130000000000 = some .calPoll := by decide

theorem test_decode_registers :
    decodeTableWord 48 0x20093E000000 = some (.cfgWr 9#8 0x3E000000#32) ∧
    decodeTableWord 48 0x212F00000000 = some (.regRd 0x2F#8) ∧ decodeTableWord 48 0x300000000000 = some .getR ∧
    decodeTableWord 48 0x310000000000 = some .getL := by decide

/-- F30-8; the three lanes differ, so no two can be exchanged. -/
theorem test_decode_upd :
    decodeTableWord 96 0x00000809000007F9000007FE = some (.upd 2057#32 2041#32 2046#32) := by decide

theorem test_decode_cycle_steps :
    decodeTableWord 8 0x80 = some .timEvent ∧ decodeTableWord 8 0x90 = some .applyPwm ∧
    decodeTableWord 8 0x91 = some .sanitize ∧ decodeTableWord 8 0x92 = some .adc2amp ∧
    decodeTableWord 8 0x93 = some .infer ∧ decodeTableWord 8 0x94 = some .dcfUpdate ∧
    decodeTableWord 8 0x95 = some .dcfValid ∧ decodeTableWord 8 0x96 = some .correct ∧
    decodeTableWord 8 0x97 = some .leakChk ∧ decodeTableWord 8 0x98 = some .magChk ∧
    decodeTableWord 8 0x99 = some .ibusChk ∧ decodeTableWord 8 0x9A = some .duty2ccr := by decide

theorem test_decode_law_steps :
    decodeTableWord 8 0xA0 = some .lawResetR ∧ decodeTableWord 8 0xA1 = some .lawMeasR ∧
    decodeTableWord 8 0xA2 = some .lawOutR ∧ decodeTableWord 8 0xA4 = some .lawResetL ∧
    decodeTableWord 8 0xA5 = some .lawMeasL ∧ decodeTableWord 8 0xA6 = some .lawOutL ∧
    decodeTableWord 8 0xA8 = some .lawResetX ∧ decodeTableWord 8 0xA9 = some .lawMeasX ∧
    decodeTableWord 8 0xAA = some .lawOutX := by decide

/-- Reserved codes (R97, R104), a data field a command ignores (R95), and widths that are no format. -/
theorem test_decode_reserved :
    decodeTableWord 48 0x080000000000 = none ∧ decodeTableWord 48 0x320000000000 = none ∧
    decodeTableWord 8 0xA3 = none ∧ decodeTableWord 8 0xAB = none ∧ decodeTableWord 8 0xAC = none ∧
    decodeTableWord 48 0x02FF12345678 = some .disarm ∧ decodeTableWord 32 0 = none := by decide

/-- The first step after reset runs the placed word; an event word is that of an event, which is pending then. -/
theorem test_step_first (w : Nat) :
    (step (State.reset.withFetchWord 48 0x010300000000) = exec (.arm 3#8) State.reset) ∧
    (step (State.reset.withFetchWord 96 w) = exec (decodeUpd (BitVec.ofNat 96 w))
      { State.reset with tim := { State.reset.tim with uif := true }, owed := true }) ∧
    (step (State.reset.withFetchWord 8 0x9A) = exec .duty2ccr State.reset) := ⟨rfl, rfl, rfl⟩

/-- R120: a word that no event accompanies starts no cycle. -/
theorem test_step_no_event :
    step { std with agenda := [.upd96 0x00000801000007FF00000800#96] } = .next std := rfl

/-- R304: with an event pending one command goes first (its `STATUS` shows the flag), then the cycle, then the other
command. -/
theorem test_step_due :
    (afterLines [.op .timEvent, .op (.regRd 0x11#8), .op (.regRd 0x11#8)] std).out =
      [.cmdResult 0x21#8 0xC0#32, .cmdResult 0x21#8 0x82#32] ∧
    (afterLines [.op .timEvent, .op (.regRd 0x11#8), .op (.regRd 0x11#8)] std).run.ts = 64#32 := by decide

/-! Numbers: patterns from spec/95_test_vectors. -/

/-- F42-9: `-(0.1f + 0.2f)`; F44-13: `0.4f × 0.5`; F42-14: `7.5 × 0.1f`; R254: `2.0 / 3.0`. -/
theorem test_numbers :
    ((f 0x3DCCCCCD).add (f 0x3E4CCCCD)).neg = f 0xBE99999A ∧ (f 0x3ECCCCCD).mul F32.half = f 0x3E4CCCCD ∧
    (f 0x40F00000).mul (f 0x3DCCCCCD) = f 0x3F400000 ∧ F32.two.div F32.three = f 0x3F2AAAAB := by decide

/-! Commands. -/

theorem test_nop : exec .nop std = .next std := rfl

/-- F41-14, F41-13. -/
theorem test_arm :
    after (.arm 3#8) warm = { armed .ext warm with env := (brakeRead warm).env, out := [.lawResetExt, .extReset] } ∧
    statusWord (after (.arm 3#8) { warm with env := { env with brakeOk := held false } }) = 0#32 := by decide

/-- F30-4; F41-21. -/
theorem test_arm_edges :
    after (.arm 0#8) std = { std with out := [.cmdReject 1#8] } ∧
    (after (.arm 1#8) (driving (armed .ext warm))).tim = (driving warm).tim ∧
    (after (.arm 1#8) (driving (armed .ext warm))).run.law = .rmeas := by decide

/-- F41-15, F41-16. -/
theorem test_disarm :
    after .disarm (driving (armed .ext warm)) = { warm with out := [.brkRecomp, .cmdResult 2#8 1#32] } ∧
    after .disarm warm = { warm with out := [.cmdResult 2#8 0#32] } := by decide

/-- F41-17; R160's example; F30-5. -/
theorem test_disarmErr :
    after (.disarmErr 12#8) warm = { warm with run := { warm.run with error := 0x1000#32 } } ∧
    (after (.disarmErr 8#8) { warm with run := { warm.run with error := 0x80#32, isArmed := true } }).run.error =
      0x180#32 ∧
    after (.disarmErr 13#8) std = { std with out := [.cmdReject 3#8] } := by decide

/-- F41-18. -/
theorem test_clrErr : after .clrErr { warm with run := { warm.run with error := 0x1840#32 } } = warm := by decide

/-- F44-1, F44-4. -/
theorem test_evalLim :
    (after .evalLim std).out = [.cmdResult 5#8 0x41200000#32] ∧
    (after .evalLim { std with cfg := cfg.set 0 1#32 }).lat.iLimEff = f 0x41000000 := by decide

/-- F44-2, F44-3: two limiters. -/
theorem test_evalLim_limiters :
    (after .evalLim { std with
      par := { par with nLim := 2 }
      env := { env with limExt := [held (f 0x41000000), held (f 0x41400000)] } }).lat.iLimEff = f 0x41000000 ∧
    (after .evalLim { std with
      par := { par with nLim := 2 }
      env := { env with limExt := [held F32.qnan, held (f 0x41400000)] } }).lat.iLimEff = f 0x41200000 := by
  decide

/-- F44-10, F44-11. -/
theorem test_maxTorque :
    (after .maxTorque { std with lat := { std.lat with iLimEff := f 0x41000000 } }).out =
      [.cmdResult 6#8 0x3E800000#32] ∧
    (after .maxTorque { std with lat := { std.lat with iLimEff := F32.two } }).out =
      [.cmdResult 6#8 0x3DCCCCCD#32] := by decide

/-- F44-12, F44-13 (ceiling raised so that it does not bind). -/
theorem test_maxTorque_acim :
    (after .maxTorque { std with
      cfg := cfg.set 0 2#32, lat := { std.lat with iLimEff := f 0x41000000 }
      env := { env with rotorFlux := held (f 0xBDCCCCCD) } }).out = [.cmdResult 6#8 0#32] ∧
    (after .maxTorque { std with
      cfg := cfg.set 0 2#32, lat := { std.lat with iLimEff := f 0x41000000 }
      env := { env with rotorFlux := held F32.half } }).out = [.cmdResult 6#8 0x3E4CCCCD#32] := by decide

/-- R285's example; F45-8. -/
theorem test_updGains :
    (after .updGains { std with cfg := (cfg.set 5 0x3FA00000#32).set 6 0x3E000000#32 }).gain =
      ⟨f 0x42FA0000, f 0x449C4000⟩ ∧
    (after .updGains { std with cal := { std.cal with state := .rWait } }).out = [.cmdReject 7#8] := by decide

/-- F45-4, F45-5. -/
theorem test_calRun :
    (after .calRun { std with cfg := ((cfg.set 0 1#32).set 5 0x3FA00000#32).set 6 0x3E000000#32 }).out =
      [.cmdResult 0x10#8 1#32] ∧
    (after .calRun { std with cfg := cfg.set 0 3#32 }).out = [.cmdResult 0x10#8 0#32] := by decide

/-- F45-1. -/
theorem test_calR :
    (after .calPoll (after .calR { warm with env := { env with brakeOk := held false } })).out =
      [.cmdResult 0x11#8 4#32] := by decide

/-- F45-2. -/
theorem test_calL :
    (after .calPoll (after .calL { warm with env := { env with brakeOk := held false } })).run.error = 2#32 := by
  decide

/-- F45-3. -/
theorem test_calPoll :
    (after .calPoll (after .calR warm)).cal.cnt = 1#32 ∧
    (after .calPoll { after .calPoll (after .calR warm) with env := { env with reqChanged := held true } }).out =
      [.extReset, .brkRecomp, .cmdResult 0x11#8 3#32] := by decide

/-- R290's example; F45-10. -/
theorem test_cfgWr :
    after (.cfgWr 9#8 0x3E000000#32) { std with cfg := cfg.set 9 0#32 } = std ∧
    after (.cfgWr 1#8 0x40A00000#32) (armed .ext std) = { armed .ext std with out := [.cmdReject 0x20#8] } := by
  decide

/-- F45-9; the status word of P2. -/
theorem test_regRd :
    (after (.regRd 9#8) std).out = [.cmdResult 0x21#8 0x3E000000#32] ∧
    (after (.regRd 0x11#8) (armed .ext warm)).out = [.cmdResult 0x21#8 0xD#32] := by decide

/-- R225's example. -/
theorem test_getR :
    (after .getR { std with rk := { std.rk with v := f 0x40A00000, target := f 0x40800000 } }).out =
      [.cmdResult 0x30#8 0x3FA00000#32] := by decide

/-- F43-15, F43-16. -/
theorem test_getL :
    (after .getL { std with lk := ⟨F32.one, true, f 0x40800000, F32.zero, 128#32, 640#32⟩ }).out =
      [.cmdResult 0x31#8 0x3E000000#32] ∧
    (after .getL { std with lk := ⟨F32.minusOne, true, f 0x40800000, F32.zero, 0xFFFFFF00#32, 0x100#32⟩ }).out =
      [.cmdResult 0x31#8 0x3E000000#32] := by decide

/-! The timer and the latch arbiter. -/

theorem test_timEvent :
    (after .timEvent { std with tim := { std.tim with ccrSh := ⟨1, 2, 3⟩, aoe := true } }).tim =
      ⟨⟨1, 2, 3⟩, ⟨1, 2, 3⟩, true, true, true, true⟩ := by decide

/-- F41-3: base state B, an event at boundary 2 of the committing call. -/
theorem test_late_commit :
    (afterLines [.updLate 2 ⟨2049, 2047, 2048⟩] (ticked (armed .ext warm))).tim =
      ⟨⟨3072, 1024, 2048⟩, ⟨3072, 2048, 2048⟩, false, false, true, false⟩ := by decide

/-- F41-6: at boundary 5; the run ends disarmed with `ControlDeadlineMissed`. -/
theorem test_late_commit_last :
    (afterLines [.updLate 5 ⟨2049, 2047, 2048⟩] (ticked (armed .ext warm))).run.error = 0x40#32 := by decide

/-- F41-9, with 100 for X: disarmed, the tentative call is the final one. -/
theorem test_late_fallback :
    (afterLines [.updLate 3 ⟨2049, 2047, 2048⟩]
      (ticked { warm with tim := { warm.tim with ccrSh := ⟨100, 100, 100⟩, ccrAct := ⟨100, 100, 100⟩ } })).tim =
      ⟨⟨2048, 2048, 2048⟩, ⟨2048, 2048, 100⟩, false, false, true, false⟩ := by decide

/-- P3, steps 7 and 8: the late event's own cycle needs no new event, and no event falls inside it. -/
theorem test_late_then_sense :
    (afterLines [.updLate 2 ⟨2049, 2047, 2048⟩, .op (.upd 2057 2041 2046)] (ticked (armed .ext warm))).run =
      ⟨false, .none, 0x40#32, 128#32, false⟩ := by decide

/-! Acquisition. -/

/-- F42-1, F42-3. -/
theorem test_sanitize :
    (after .sanitize (withOpnd { Operands.zero with adc := ⟨371, 372, 3724⟩ } std)).res =
      .codes ⟨0xFFFFFFFF, 372, 0xFFFFFFFF⟩ ∧
    (after .sanitize (withOpnd { Operands.zero with adc := ⟨371, 372, 3724⟩ } std)).run.error = 0x80#32 ∧
    (after .sanitize (withOpnd { Operands.zero with adc := ⟨0, 2056, 2042⟩ }
      { std with par := { par with senseMask := 0b110#3 } })).run.error = 0#32 := by decide

/-- F42-4, F42-5. -/
theorem test_adc2amp :
    (after .adc2amp (withOpnd { Operands.zero with code := 2042 } std)).res = .amps (f 0xBFC00000) ∧
    (after .adc2amp (withOpnd { Operands.zero with code := 3723 } std)).res = .amps (f 0x43D16000) := by decide

/-- F42-7. -/
theorem test_infer :
    (after .infer (withOpnd { Operands.zero with amps := ⟨F32.qnan, F32.two, f 0xBFC00000⟩ }
      { std with par := { par with senseMask := 0b110#3 } })).res =
      .currents ⟨f 0xBF000000, F32.two, f 0xBFC00000⟩ := by decide

/-- F42-11: two updates with tau 0.5. -/
theorem test_dcfUpdate :
    (after .dcfUpdate (after .dcfUpdate (withOpnd { Operands.zero with amps := ⟨F32.one, f 0xC0000000, F32.half⟩ }
      { std with cfg := cfg.set 9 0x3F000000#32 }))).dcf =
      ⟨⟨f 0x3EE00000, f 0xBF600000, f 0x3E600000⟩, f 0x3E800000⟩ := by decide

/-- F42-14, F42-15. -/
theorem test_dcfValid :
    (after .dcfValid { warm with cfg := cfg.set 9 0x3DCCCCCD#32, dcf := { warm.dcf with since := f 0x3F400000 } }).res =
      .bit true ∧
    (after .dcfValid { warm with dcf := { warm.dcf with off := ⟨F32.one, F32.zero, F32.zero⟩ } }).res = .bit false := by
  decide

/-- R192's formula with a time constant of zero, the clock advanced or just reset; never with a negative one (R191 (c)),
nor just reset with two sensors missing (R187), nor after reset (R331). -/
theorem test_dcfValid_tau :
    (after .dcfValid { warm with cfg := cfg.set 9 0#32 }).res = .bit true ∧
    (after .dcfValid { warm with cfg := cfg.set 9 0xBE000000#32 }).res = .bit false ∧
    (after .dcfValid { std with cfg := cfg.set 9 0#32 }).res = .bit true ∧
    (after .dcfValid { std with cfg := cfg.set 9 0#32, par := { par with senseMask := 0b001#3 } }).res = .bit false ∧
    (after .dcfValid (State.resetWith par Config.launch)).res = .bit false ∧
    (after .dcfValid (State.resetWith par
      { Config.launch with cfg := cfg.set 9 0xBE000000#32, tauNotZero := by decide })).res = .bit false := by decide

/-- F42-16, F42-18. -/
theorem test_correct :
    (after .correct (withOpnd { Operands.zero with amps := ⟨F32.two, f 0xBFC00000, f 0xBF000000⟩ } warm)).res =
      .currents ⟨f 0x3FE00000, f 0xBFA00000, f 0xBF000000⟩ ∧
    (after .correct { warm with dcf := { warm.dcf with since := f 0x3F600000 } }).res =
      .currents ⟨F32.qnan, F32.qnan, F32.qnan⟩ := by decide

/-- F42-19. -/
theorem test_leakChk :
    (after .leakChk { warm with lat := { warm.lat with iLeak := f 0x3E000000 } }).run.error = 0#32 ∧
    (after .leakChk { warm with lat := { warm.lat with iLeak := f 0xBE800000 } }).run.error = 0x100#32 := by
  decide

/-- F44-7, F44-8. -/
theorem test_magChk :
    (after .magChk { warm with
      lat := { warm.lat with iMeas := ⟨f 0x40800000, f 0xC0000000, f 0xC0000000⟩, iLimEff := f 0x40600000 }
      cfg := cfg.set 13 0x3F000000#32 }).run.error = 0#32 ∧
    (after .magChk { warm with
      lat := { warm.lat with iMeas := ⟨f 0x40800000, f 0xC0000000, f 0xC0000000⟩, iLimEff := f 0x40600000 }
      cfg := cfg.set 13 0x3E800000#32 }).run.error = 0x200#32 := by decide

/-- R134: equal to a bound does not trip, below it does. -/
theorem test_ibusChk :
    (after .ibusChk { warm with lat := { warm.lat with iBus := f 0xC2C80000 } }).run.error = 0#32 ∧
    (after .ibusChk { warm with lat := { warm.lat with iBus := f 0xC2C80001 } }).run.error = 0x400#32 := by
  decide

/-- F30-9, F30-11. -/
theorem test_duty2ccr :
    (after .duty2ccr (withOpnd { Operands.zero with duty := F32.half } std)).res = .compare 2048 ∧
    (after .duty2ccr (withOpnd { Operands.zero with duty := f 0x3F7FFFFF } std)).res = .compare 4095 := by decide

/-! The control laws. -/

/-- The resistance kernel of section 3.5 after its reset. -/
def kernelR : State :=
  after .lawResetR { std with rk := ⟨f 0x40800000, f 0x41000000, F32.one, F32.one, F32.one⟩ }

/-- The operands of `LAW_MEAS.R(vbus, I.a)`. -/
def measure (vbus ia : F32) (s : State) : State :=
  withOpnd { Operands.zero with vbus := vbus, amps := ⟨ia, F32.zero, F32.zero⟩ } s

/-- F43-1, and R220: the instance parameters are kept. -/
theorem test_lawResetR :
    (after .lawOutR kernelR).res = .out (.err .controllerInitializing) ∧
    kernelR.rk = ⟨f 0x40800000, f 0x41000000, F32.zero, F32.qnan, F32.zero⟩ := by decide

/-- F43-2, then F43-5. -/
theorem test_lawMeasR :
    (after .lawMeasR (measure (f 0x41800000) F32.zero kernelR)).rk.mod = f 0x3EA00000 ∧
    (after .lawMeasR (measure F32.qnan (f 0x40400000)
      (after .lawMeasR (measure (f 0x41800000) F32.zero kernelR)))).rk =
      ⟨f 0x40800000, f 0x41000000, f 0x40C80000, f 0x3EA00000, f 0x40400000⟩ ∧
    (after .lawMeasR (measure F32.qnan (f 0x40400000)
      (after .lawMeasR (measure (f 0x41800000) F32.zero kernelR)))).res = .meas (.err .unknownVbusVoltage) := by
  decide

/-- F43-3. -/
theorem test_lawOutR :
    (after .lawOutR { std with rk := { std.rk with mod := f 0x3EA00000 } }).res =
      .out (.duty ⟨f 0x3F500000, f 0x3EB00000, f 0x3EB00000⟩) := by decide

theorem test_lawResetL :
    (after .lawResetL { std with lk := ⟨F32.minusOne, true, F32.one, F32.two, 5#32, 6#32⟩ }).lk =
      ⟨F32.minusOne, false, F32.zero, F32.zero, 0#32, 0#32⟩ := by decide

/-- F43-13, F43-14. -/
theorem test_lawMeasL :
    (after .lawMeasL (withOpnd { Operands.zero with vbus := F32.one, amps := ⟨f 0x3FC00000, F32.zero, F32.zero⟩, ts := 640 }
      { std with lk := ⟨F32.minusOne, true, F32.two, F32.half, 128#32, 512#32⟩ })).lk =
      ⟨F32.minusOne, true, F32.three, f 0x3FC00000, 128#32, 640#32⟩ ∧
    (after .lawMeasL (measure F32.one F32.qnan std)).lk = std.lk := by decide

/-- F43-10, F43-11. -/
theorem test_lawOutL :
    (after .lawOutL { std with lk := { std.lk with v := F32.one } }).res =
      .out (.duty ⟨f 0x3EE00000, f 0x3F080000, f 0x3F080000⟩) ∧
    (after .lawOutL { std with lk := { std.lk with v := F32.one }, env := { env with vbus := held F32.qnan } }).lk.v =
      F32.one := by decide

/-- R235, R236, R237. -/
theorem test_lawX :
    (after .lawResetX std).out = [.lawResetExt] ∧
    (after .lawMeasX (withOpnd { Operands.zero with ts := 64 } std)).out =
      [.lawMeasExt F32.zero ⟨F32.zero, F32.zero, F32.zero⟩ 64#32] ∧
    (after .lawOutX (withOpnd { Operands.zero with ts := 128 } std)).out = [.lawOutExt 128#32] := by decide

/-! The update cycle. -/

/-- F40-1. -/
theorem test_upd_commit :
    (tick 2049 2047 2048 std).dcf = ⟨⟨f 0x3E800000, f 0xBE800000, F32.zero⟩, f 0x3E000000⟩ ∧
    (tick 2049 2047 2048 std).run = { std.run with ts := 64#32, countingDown := true } := by decide

/-- F40-2: the operation alone, the direction unchanged. -/
theorem test_upd_missed :
    (after (.upd 2049 2047 2048) std).run = ⟨false, .none, 0x800#32, 64#32, false⟩ ∧
    (after (.upd 2049 2047 2048) std).dcf = std.dcf ∧ (after (.upd 2049 2047 2048) std).tim = std.tim := by decide

/-- F40-4. -/
theorem test_upd_commit_armed :
    (tick 2049 2047 2048 (armed .ext warm)).lat.iBus = f 0xBF600000 ∧
    (tick 2049 2047 2048 (armed .ext warm)).tim =
      ⟨⟨3072, 1024, 2048⟩, ⟨2048, 2048, 2048⟩, true, false, false, true⟩ := by decide

/-- F60-2: two kinds in one `SENSE` cycle, one `BRK_RECOMP`. -/
theorem test_upd_sense_faults :
    (tick 2209 2047 2048 (senseNext (armed .ext warm))).run.error = 0x300#32 ∧
    (tick 2209 2047 2048 (senseNext (armed .ext warm))).out = [.brkRecomp] := by decide

/-- F40-9: the supervisor disarms without a bit and the law is not fed. -/
theorem test_upd_supervisor :
    (tick 2057 2041 2046 { senseNext (armed .ext warm) with env := { env with supDisarm := held true } }).run.error =
      0#32 ∧
    (tick 2057 2041 2046 { senseNext (armed .ext warm) with env := { env with supDisarm := held true } }).out =
      [.brkRecomp] := by decide

/-- R107: a `TICK` line is a `TIM_EVENT`, then an `UPD` with its codes. -/
theorem test_trace_tick :
    (loadLine (.tick ⟨2049, 2047, 2048⟩) std).agenda =
      [.uop8 0x80#8 Operands.zero, .upd96 0x00000801000007FF00000800#96] := by decide

/-! Witnesses: a state and operands that meet the hypotheses of each obligation together, clause by clause where it has
several. -/

/-- Every operation answers a next state, so `after` is it. -/
theorem exec_after (i : Instr) (s : State) : exec i s = .next (after i s) := by cases i <;> rfl

theorem wit_DecodeEncodeAgree : decode (.cmd48 0x02FF12345678#48) = .ok .disarm := by decide

/-- Each clause of `illegal`, at the boundary of its range. -/
theorem wit_IllegalCommandRejected :
    (illegal 0x080000000000#48 std ∧ illegal 0xFF0000000000#48 std) ∧
    (illegal 0x010000000000#48 std ∧ illegal 0x010400000000#48 std) ∧ illegal 0x030D00000000#48 std ∧
    illegal 0x201000000000#48 std ∧ illegal 0x213000000000#48 std ∧
    illegal 0x070000000000#48 { std with cal := { std.cal with state := .rWait } } ∧
    illegal 0x200141200000#48 { std with cal := { std.cal with state := .lWait } } ∧
    illegal 0x200141200000#48 (armed .ext std) ∧ ¬ illegal 0x010300000000#48 std ∧ ¬ illegal 0x200F00000000#48 std ∧
    ¬ illegal 0x212F00000000#48 (armed .ext std) ∧ ¬ illegal 0x030C00000000#48 std := by
  refine ⟨⟨?_, ?_⟩, ⟨?_, ?_⟩, ?_, ?_, ?_, ?_, ?_, ?_, ?_, ?_, ?_, ?_⟩ <;> (unfold illegal; decide)

/-- An event pending that a command has delayed already. -/
def due (a : List Arrival) : State := { ticked std with owed := true, agenda := a }

/-- Each clause: a command, a timer event and an event word that may go, a word without an event, a cycle that is due
with and without an arrival, nothing to do, and a reserved code. -/
theorem wit_StepRunsDecoded :
    (decode (.cmd48 0x010300000000#48) = .ok (.arm 3#8) ∧ ¬ mustWait (.cmd48 0x010300000000#48) std ∧
      ¬ mustWait (.cmd48 0x010300000000#48) (ticked std)) ∧
    ¬ mustWait (.uop8 0x80#8 Operands.zero) (due []) ∧
    (¬ mustWait (.upd96 0#96) (due []) ∧ (due []).tim.uif = true) ∧ std.tim.uif = false ∧
    (mustWait (.cmd48 0x010300000000#48) (due []) ∧ mustWait (.uop8 0x90#8 Operands.zero) (due []) ∧
      (due []).agenda = []) ∧
    (std.agenda = [] ∧ std.tim.uif = false) ∧
    (¬ mustWait (.uop8 0xA3#8 Operands.zero) std ∧ decode (.uop8 0xA3#8) = .error (.reservedUop 0xA3#8)) := by
  unfold mustWait
  decide

theorem wit_PendingEventDelayedByOneCommand (n : Nat) (rest : List Arrival) :
    let s : State :=
      { ticked std with
        agenda := .cmd48 0#48 :: (List.replicate n (.uop8 0x80#8 Operands.zero) ++ .cmd48 0x020000000000#48 :: rest) }
    s.tim.uif = true ∧ s.owed = false ∧ s.quiet ∧
    s.agenda = .cmd48 0#48 :: (List.replicate n (.uop8 0x80#8 Operands.zero) ++ .cmd48 0x020000000000#48 :: rest) :=
  ⟨rfl, rfl, rfl, rfl⟩

/-- `1.0`, `-1.0` and `3.0`: finite, a zero sum, a nonzero divisor. -/
theorem wit_ArithmeticRoundsToNearestEven :
    F32.one.isFinite = true ∧ F32.minusOne.isFinite = true ∧ value F32.one + value F32.minusOne = 0 ∧
    value F32.three ≠ 0 := by
  refine ⟨rfl, rfl, ?_, ?_⟩ <;> norm_num [value, F32.one, F32.minusOne, F32.three]

theorem wit_ComparisonsFollowValues :
    F32.one.isFinite = true ∧ F32.two.isFinite = true ∧ F32.qnan.isNaN = true ∧ F32.lt F32.one F32.two = true ∧
    F32.lt F32.two F32.one = false := by decide

theorem wit_SpecialOperands :
    F32.qnan.isNaN = true ∧ F32.one.isFinite = true ∧ value F32.one ≠ 0 ∧ F32.zero.isFinite = true ∧
    value F32.zero = 0 := by
  refine ⟨rfl, rfl, ?_, rfl, ?_⟩ <;> norm_num [value, F32.one, F32.zero]

theorem wit_DerivedParameters : par.sourceLiterals = true ∧ par.axisDuty = .balanced := by decide

theorem wit_ResetState : par.countingDownReset = false := by decide

/-- A step of a sound state, the outputs driven. -/
theorem wit_StepKeepsSound :
    (driving (armed .ext warm)).sound ∧ step (driving (armed .ext warm)) = .next (driving (armed .ext warm)) :=
  ⟨by decide, rfl⟩

/-- One step from a launch state, an `ARM` with the interlock satisfied: the block is armed. -/
theorem wit_ReachableArmedIffLaw :
    Host.Core.run Sys2Proof.core 1
      ({ State.resetWith par Config.launch with
         cfg := cfg.set 9 0#32, agenda := [.cmd48 0x010300000000#48], env := env, opnd := Operands.zero } : State) =
      .next (after (.arm 3#8)
        ({ State.resetWith par Config.launch with
           cfg := cfg.set 9 0#32, agenda := [], env := env, opnd := Operands.zero } : State)) := rfl

theorem wit_ErrorBitsSticky :
    Instr.nop ≠ .clrErr ∧ exec .nop { std with run := { std.run with error := 0x1000#32 } } =
      .next { std with run := { std.run with error := 0x1000#32 } } ∧ (0x1000#32).getLsbD 12 = true :=
  ⟨by decide, rfl, by decide⟩

theorem wit_OnlyArmEntersArmed :
    exec (.arm 3#8) warm = .next (after (.arm 3#8) warm) ∧ warm.run.isArmed = false ∧
    (after (.arm 3#8) warm).run.isArmed = true := ⟨rfl, rfl, by decide⟩

/-- The latch set, not yet driven; the event drives the outputs. -/
def latched : State := { armed .ext warm with tim := { warm.tim with aoe := true } }

theorem wit_DrivenOnlyByTimerEvent :
    latched.quiet ∧ exec .timEvent latched = .next (after .timEvent latched) ∧ ¬ latched.driven ∧
    (after .timEvent latched).driven := ⟨by decide, rfl, by decide +kernel, by decide +kernel⟩

/-- A disarmed block, an event to come. -/
theorem wit_NoEnableAfterDisarmUntilArm :
    ({ warm with agenda := [.uop8 0x80#8 Operands.zero] } : State).safeOff ∧
    (∀ a ∈ ({ warm with agenda := [.uop8 0x80#8 Operands.zero] } : State).agenda, ¬ asksArm a) ∧
    Host.Core.run Sys2Proof.core 1 ({ warm with agenda := [.uop8 0x80#8 Operands.zero] } : State) =
      .next (after .timEvent { warm with agenda := [] }) := by
  refine ⟨by decide, ?_, rfl⟩
  intro a ha
  have ha' : a = .uop8 0x80#8 Operands.zero := by simpa using ha
  subst ha'
  rintro ⟨i, h, h'⟩
  have hi : i = .timEvent := by
    have : decode (.uop8 0x80#8) = .ok i := h
    simpa [decode, decodeUop, eq_comm] using this
  subst hi
  simp at h'

theorem wit_CommandsLeaveDatapath :
    encode .calR = .cmd48 0x110000000000#48 ∧ exec .calR warm = .next (after .calR warm) := ⟨by decide, rfl⟩

theorem wit_ErrorMaskDecidesNothing : Instr.upd 2049#32 2047#32 2048#32 ≠ .regRd 0x10#8 := by decide

theorem wit_InertOptions :
    ((0x0E : Fin 16) = 0x0E ∨ (0x0E : Fin 16) = 0x0F) ∧ (∀ d, Instr.calRun ≠ .cfgWr (BitVec.ofNat 8 14) d) ∧
    Instr.calRun ≠ .regRd (BitVec.ofNat 8 14) := ⟨.inl rfl, fun _ => by simp, by simp⟩

theorem wit_DisarmErrRecords : (0 : Nat) ≤ 12 ∧ (12 : Nat) ≤ 12 := by decide

theorem wit_ArmOutcome :
    (brakeNow warm = true ∧ brakeNow (driving (armed .rmeas warm)) = true) ∧
    brakeNow { warm with env := { env with brakeOk := held false } } = false ∧ (Instr.arm 1#8).wf = true ∧
    (Instr.arm 3#8).wf = true := by decide

theorem wit_MaxTorqueQuery : std.cfg.get 0x00 ≠ 2#32 ∧ (cfg.set 0 2#32).get 0x00 = 2#32 := by decide

theorem wit_calibration_idle_and_running :
    std.cal.state = .idle ∧ (after .calR warm).cal.state ≠ .idle := by decide

/-- The four classes of `motor_type`, 3 the least reserved one. -/
theorem wit_CalRunByMotorType :
    cfg.get 0x00 = 0#32 ∧ (cfg.set 0 2#32).get 0x00 = 2#32 ∧ (cfg.set 0 1#32).get 0x00 = 1#32 ∧
    3 ≤ ((cfg.set 0 3#32).get 0x00).toNat := by decide

/-- In the loop at count `n`, armed or not. -/
def waiting (w : CalState) (a : Bool) (n : U32) : State :=
  { warm with
    cal := { state := w, cnt := n, seq := true, ok := false }
    run := { warm.run with isArmed := a, law := if a then (if w = .rWait then .rmeas else .lmeas) else .none } }

theorem wit_PollWaits :
    std.cal.state = .idle ∧ (waiting .rWait true 2999).cal.state ≠ .idle ∧
    exitReason (waiting .rWait true 2999) = none := by decide

/-- The three reasons; the ceiling, reached exactly, goes before the others. -/
theorem wit_FinishResistance :
    (waiting .rWait true 3000).cal.state = .rWait ∧ exitReason (waiting .rWait false 3000) = some 0 ∧
    exitReason { waiting .rWait false 2999 with env := { env with reqChanged := held true } } = some 1 ∧
    exitReason (waiting .rWait false 2999) = some 2 := by decide

theorem wit_FinishInductance :
    (waiting .lWait true 1250).cal.state = .lWait ∧ exitReason (waiting .lWait true 1250) = some 0 ∧
    exitReason (waiting .lWait false 1249) = some 2 := by decide

/-- The store, and each ground of rejection at its boundary. -/
theorem wit_CfgWrStores :
    (std.cal.state = .idle ∧ std.run.isArmed = false) ∧ 0x0F < (0x10#8).toNat ∧ (after .calR warm).cal.state ≠ .idle ∧
    (armed .ext std).run.isArmed = true := by decide

theorem wit_RegRdReads : (0x2F : Nat) ≤ 0x2F ∧ 0x2F < (0x30#8).toNat := by decide

/-- All four cases: interlock open or not, an event pending or not. -/
theorem wit_ApplyPwmWithoutEvent :
    warm.quiet ∧ brakeNow (timRead warm) = true ∧ warm.tim.uif = false ∧ (ticked warm).quiet ∧
    (ticked warm).tim.uif = true ∧
    brakeNow (timRead { warm with env := { env with brakeOk := held false } }) = false := by decide

/-- The first and the last boundary. -/
theorem wit_ApplyPwmLateEvent :
    (({ queued := [1], held := some 0 } : Wire Nat) = { queued := List.replicate 0 0 ++ [1], held := some 0 }) ∧
    (({ queued := [0, 0, 0, 0, 0, 1], held := some 0 } : Wire Nat) =
      { queued := List.replicate 5 0 ++ [1], held := some 0 }) ∧
    env.brakeOk = held true ∧ warm.tim.uif = false := by decide

theorem wit_DutyToCompareCode :
    F32.le F32.zero F32.one = true ∧ F32.le F32.one F32.one = true ∧ F32.le F32.zero F32.zero = true ∧
    F32.le F32.zero F32.half = true ∧ F32.le F32.half F32.one = true := by decide

/-- A time constant of zero, two sensors present or the clock advanced, a positive one, a negative one; the source's
literals; two sensors missing. -/
theorem wit_FilterValidAndCorrect :
    (F32.le F32.zero (opt 0x09 { warm with cfg := cfg.set 9 0#32 }) = true ∧ F32.lt F32.zero warm.dcf.since = true) ∧
    (F32.le F32.zero (opt 0x09 { std with cfg := cfg.set 9 0#32 }) = true ∧ ¬ blind { par with senseMask := 0b110#3 }) ∧
    (par.sourceLiterals = true ∧ F32.lt F32.zero (opt 0x09 warm) = true) ∧
    F32.le F32.zero (opt 0x09 { std with cfg := cfg.set 9 0xBE000000#32 }) = false ∧
    blind { par with senseMask := 0b001#3 } := by decide

theorem wit_LawOpsOwnRegisters :
    exec .lawOutR std = .next (after .lawOutR std) ∧ exec .lawOutL std = .next (after .lawOutL std) ∧
    exec .lawOutX std = .next (after .lawOutX std) := ⟨rfl, rfl, rfl⟩

theorem wit_UpdMissed : std.quiet ∧ std.tim.dir = std.run.countingDown := by decide

/-- A `SENSE` cycle disarmed. -/
theorem wit_UpdSenseDisarmed :
    (ticked (senseNext warm)).sound ∧ (ticked (senseNext warm)).quiet ∧ (ticked (senseNext warm)).tim.dir = false ∧
    (ticked (senseNext warm)).run.countingDown = true ∧ (ticked (senseNext warm)).run.law = .none := by decide

/-- A `SENSE` cycle about to start, law `l` attached and the block armed. -/
def sensing (l : LawSel) : State := ticked (senseNext (armed l warm))

/-- `sensing l` with option `n` set to the datum of `w`. -/
def sensingWith (l : LawSel) (n : Fin 16) (w : U32) : State :=
  { sensing l with cfg := cfg.set n.val w n.isLt }

/-- Each cause alone, as the disjunction names it: F60-4's saturated code with a kernel attached, F40-9, leakage (a bound
below it), over-current (a margin that brings the trip level to zero); and F60-2, whose currents trip both. -/
theorem wit_UpdSenseLawNotFed :
    ((sensing .rmeas).quiet ∧ (sensing .rmeas).tim.dir = false ∧ (sensing .rmeas).run.countingDown = true ∧
      (sensing .rmeas).run.law ≠ .none ∧ anySaturated (sensing .rmeas).par ⟨100#32, 2048#32, 2048#32⟩) ∧
    supNow (timRead { sensing .ext with env := { env with supDisarm := held true } }) = true ∧
    (leaks (after (.upd 2057 2041 2046) (sensingWith .rmeas 0x0A 0xBF800000#32)) ∧
      ¬ overCurrent (after (.upd 2057 2041 2046) (sensingWith .rmeas 0x0A 0xBF800000#32))) ∧
    (overCurrent (after (.upd 2057 2041 2046) (sensingWith .lmeas 0x0D 0xC1200000#32)) ∧
      ¬ leaks (after (.upd 2057 2041 2046) (sensingWith .lmeas 0x0D 0xC1200000#32))) ∧
    (leaks (after (.upd 2209 2047 2048) (sensing .ext)) ∧ overCurrent (after (.upd 2209 2047 2048) (sensing .ext)) ∧
      ¬ anySaturated (sensing .ext).par ⟨2209#32, 2047#32, 2048#32⟩) := by decide

/-- A `SENSE` cycle of an armed law, the external law to answer `q`, bus voltage `v`, voltage bound `vmax`. -/
def feeding (l : LawSel) (q : MeasResult) (v vmax : F32) : State :=
  { sensing l with env := { env with extMeas := held q, vbus := held v }, rk := { warm.rk with vmax := vmax } }

/-- The law, the external answer, the bus voltage, the voltage bound, and the answer the fed law gives: a success and an
error of each of the three; for the external one F40-8 and its successful twin. -/
def feedings : List (LawSel × MeasResult × F32 × F32 × MeasResult) :=
  [(.rmeas, .success, f 0x41800000, f 0x41000000, .success),
   (.rmeas, .success, f 0x41800000, F32.zero, .err .phaseResistanceOutOfRange),
   (.rmeas, .success, F32.qnan, f 0x41000000, .err .unknownVbusVoltage),
   (.lmeas, .success, f 0x41800000, F32.zero, .success),
   (.lmeas, .success, F32.qnan, F32.zero, .err .unknownVbusVoltage),
   (.ext, .success, f 0x41800000, F32.zero, .success),
   (.ext, .err .controllerInitializing, f 0x41800000, F32.zero, .err .controllerInitializing)]

theorem wit_UpdSenseFeedsLaw (l : LawSel) (q r : MeasResult) (v vmax : F32) (h : (l, q, v, vmax, r) ∈ feedings) :
    let s := feeding l q v vmax
    let t := after (.upd 2057#32 2041#32 2046#32) s
    (s.quiet ∧ s.tim.dir = false ∧ s.run.countingDown = true ∧ s.run.law ≠ .none ∧ s.run.isArmed = true ∧
      s.env.supDisarm = held false ∧ s.env.vbus = held v ∧ s.env.extMeas = held q ∧
      ¬ anySaturated s.par ⟨2057#32, 2041#32, 2046#32⟩ ∧ ¬ leaks t ∧ ¬ overCurrent t ∧
      fedAnswer l q v F32.two s = r) ∧
    exec (.upd 2057#32 2041#32 2046#32) s = .next t := by
  have key : ∀ c ∈ feedings,
      let s := feeding c.1 c.2.1 c.2.2.1 c.2.2.2.1
      let t := after (.upd 2057#32 2041#32 2046#32) s
      s.quiet ∧ s.tim.dir = false ∧ s.run.countingDown = true ∧ s.run.law ≠ .none ∧ s.run.isArmed = true ∧
      s.env.supDisarm = held false ∧ s.env.vbus = held c.2.2.1 ∧ s.env.extMeas = held c.2.1 ∧
      ¬ anySaturated s.par ⟨2057#32, 2041#32, 2046#32⟩ ∧ ¬ leaks t ∧ ¬ overCurrent t ∧
      fedAnswer c.1 c.2.1 c.2.2.1 F32.two s = c.2.2.2.2 := by decide
  exact ⟨key _ h, exec_after _ _⟩

/-- No law; a saturated phase with a law attached. -/
theorem wit_UpdCommitLawNotAsked :
    ((ticked warm).quiet ∧ (ticked warm).tim.dir = true ∧ (ticked warm).run.countingDown = false ∧
      (ticked warm).env.brakeOk = held true ∧ (ticked warm).sound ∧ (ticked warm).run.law = .none) ∧
    ((ticked (armed .ext warm)).tim.dir = true ∧ (ticked (armed .ext warm)).run.law = .ext ∧
      anySaturated (ticked (armed .ext warm)).par ⟨100#32, 2048#32, 4000#32⟩) := by decide

/-- A `COMMIT` cycle of an armed law `l`, the external one to answer `q`, the outputs driven or not. -/
def committing (l : LawSel) (q : OutResult) (d : Bool) : State :=
  { ticked (armed l warm) with
    env := { env with extOut := held q }
    tim := { (ticked warm).tim with aoe := d, moe := d } }

/-- The hypotheses of `UpdCommitAsksLaw`, for every law, answer and output. -/
theorem wit_UpdCommitAsksLaw (l : LawSel) (q : OutResult) (d : Bool) (h : l ≠ .none) :
    (committing l q d).quiet ∧ (committing l q d).tim.dir = true ∧ (committing l q d).run.countingDown = false ∧
    (committing l q d).run.law ≠ .none ∧ (committing l q d).run.isArmed = true ∧
    (committing l q d).env.brakeOk = held true ∧ (committing l q d).env.vbus = held (f 0x41800000) ∧
    (committing l q d).env.extOut = held q ∧ (committing l q d).par.lookAhead = 2#32 ∧
    ¬ anySaturated (committing l q d).par ⟨2049#32, 2047#32, 2048#32⟩ := by
  refine ⟨rfl, rfl, rfl, h, rfl, rfl, rfl, rfl, rfl, ?_⟩
  show ¬ anySaturated par ⟨2049#32, 2047#32, 2048#32⟩
  decide

/-- Its four clauses: F40-7 (the ends of the range) and F43-3, F43-12, F43-1 and F40-3, and the same kind once the
outputs are driven. -/
theorem wit_UpdCommitAsksLaw_answers :
    (askedAnswer .ext (.duty ⟨F32.one, F32.zero, F32.half⟩) F32.one warm = .duty ⟨F32.one, F32.zero, F32.half⟩ ∧
      dutyOk ⟨F32.one, F32.zero, F32.half⟩ ∧
      askedAnswer .rmeas (.duty ⟨F32.one, F32.zero, F32.half⟩) F32.one
        { warm with rk := { warm.rk with mod := f 0x3EA00000 } } =
        .duty ⟨f 0x3F500000, f 0x3EB00000, f 0x3EB00000⟩ ∧
      dutyOk ⟨f 0x3F500000, f 0x3EB00000, f 0x3EB00000⟩) ∧
    (askedAnswer .lmeas (.duty ⟨F32.one, F32.zero, F32.half⟩) F32.one { warm with lk := { warm.lk with v := F32.one } } =
        .duty ⟨f 0xBF000000, F32.one, F32.one⟩ ∧ ¬ dutyOk ⟨f 0xBF000000, F32.one, F32.one⟩) ∧
    (askedAnswer .rmeas (.duty ⟨F32.one, F32.zero, F32.half⟩) F32.one warm = .err .controllerInitializing ∧
      (committing .rmeas (.duty ⟨F32.one, F32.zero, F32.half⟩) false).tim.moe = false) ∧
    (askedAnswer .lmeas (.duty ⟨F32.one, F32.zero, F32.half⟩) F32.qnan warm = .err .unknownVbusVoltage ∧
      (committing .ext (.err .controllerInitializing) true).tim.moe = true) := by decide

/-- The state `s` with `m` events at one place of its cycle, after `n` boundaries. -/
def eventful (n m : Nat) (s : State) : State := { s with env := { s.env with timEvents := eventsAt n m } }

/-- Its clauses, with one event and with two: before line 3 a missed, a `SENSE` (with a law and without) and a `COMMIT`
cycle; the first and the last boundary of the tentative call; the same of the committing one, for each law. -/
theorem wit_UpdEventInside :
    ((eventTim^[1] (ticked warm).tim).dir = warm.run.countingDown ∧ (eventTim^[2] warm.tim).dir = warm.run.countingDown) ∧
    ((eventful 0 1 (senseNext warm)).sound ∧ (eventTim^[1] (senseNext warm).tim).dir = false ∧
      (eventTim^[2] (sensing .rmeas).tim).dir = false ∧ (sensing .rmeas).run.countingDown = true ∧
      (senseNext warm).run.countingDown = true ∧ (senseNext warm).run.law = .none) ∧
    (warm.run.countingDown = false ∧ warm.env.brakeOk = held true ∧ (eventTim^[1] warm.tim).dir = true ∧
      (eventTim^[2] (ticked warm).tim).dir = true) ∧
    ((eventful (1 + 0) 1 (ticked (armed .ext warm))).tim.dir = true ∧
      (eventful (1 + 5) 2 (ticked (armed .ext warm))).run.countingDown = false) ∧
    (let q := OutResult.duty ⟨f 0x3F400000, f 0x3E800000, F32.half⟩
     let x : Triple F32 := ⟨f 0x3F500000, f 0x3EB00000, f 0x3EB00000⟩
     askedAnswer .ext q (f 0x41800000) (eventful (7 + 0) 1 (committing .ext q true)) = q ∧
     dutyOk ⟨f 0x3F400000, f 0x3E800000, F32.half⟩ ∧
     askedAnswer .rmeas q (f 0x41800000)
       (eventful (7 + 5) 2 { committing .rmeas q true with rk := { warm.rk with mod := f 0x3EA00000 } }) = .duty x ∧
     askedAnswer .lmeas q (f 0x41800000)
       (eventful (7 + 5) 1 { committing .lmeas q false with lk := { warm.lk with v := f 0xC0A00000 } }) = .duty x ∧
     dutyOk x ∧ (committing .lmeas q false).env.vbus = held (f 0x41800000) ∧ ¬ anySaturated (committing .lmeas q false).par ⟨2049#32, 2047#32, 2048#32⟩) := by decide

theorem wit_CommitRecordsEveryFault :
    (ticked { warm with env := { env with brakeOk := held false } }).quiet ∧
    (ticked { warm with env := { env with brakeOk := held false } }).tim.dir = true ∧
    (ticked { warm with env := { env with brakeOk := held false } }).run.countingDown = false ∧
    (ticked { warm with env := { env with brakeOk := held false } }).env.brakeOk = held false := by decide

/-- Any number of events before the word, none among them; a flag left by an earlier event; a kernel attached. -/
theorem wit_FoldedEventsByParity (n : Nat) (u : Bool) :
    let s : State :=
      { armed .rmeas warm with
        tim := { warm.tim with uif := u }
        agenda := List.replicate n (.uop8 0x80#8 Operands.zero) ++ [.upd96 0x00000801000007FF00000800#96] }
    s.quiet ∧ s.run.error = 0#32 ∧ s.tim.dir = s.run.countingDown ∧ s.run.law ≠ .ext ∧ s.tim.uif = u ∧
    s.agenda = List.replicate n (.uop8 0x80#8 Operands.zero) ++ [.upd96 0x00000801000007FF00000800#96] :=
  ⟨rfl, rfl, rfl, (by decide : LawSel.rmeas ≠ .ext), rfl, rfl⟩

/-- Both loops, at the ceiling, with exactly as many polls as the bound asks. -/
theorem wit_CalibrationEndsWithinCeilings :
    (waiting .rWait true 3000).calSound ∧ (waiting .rWait true 3000).cal.state ≠ .idle ∧
    (waiting .rWait true 3000).tim.uif = false ∧ (waiting .lWait true 1250).tim.uif = false ∧
    (waiting .lWait true 1250).calSound ∧ (waiting .lWait true 1250).cal.state ≠ .idle ∧
    ((waiting .rWait true 3000).par.rCalPolls.toNat + 1) + ((waiting .rWait true 3000).par.lCalPolls.toNat + 1) ≤ 4252 := by
  decide

end Sys2Proof.Tests
end

/-!
Numbers: finite binary32 data as signed multiples of 2^-149 (spec/00_scope R16), rounding to the nearest datum, and the
comparisons and special operands of R16 and R17.
-/

namespace Sys2Proof.Proofs

open Sys2Proof.Machine Sys2Proof.Claims

/-! Data as signed magnitudes. -/

/-- The factor a sign bit stands for. -/
def sgn (n : Bool) : ℚ := if n then -1 else 1

@[simp] theorem sgn_true : sgn true = -1 := rfl
@[simp] theorem sgn_false : sgn false = 1 := rfl

theorem sgn_bne (n m : Bool) : sgn (n != m) = sgn n * sgn m := by
  cases n <;> cases m <;> norm_num

theorem sgn_mul_self (n : Bool) : sgn n * sgn n = 1 := by cases n <;> norm_num

theorem abs_sgn (n : Bool) : |sgn n| = 1 := by cases n <;> norm_num

theorem inv_sgn (n : Bool) : (sgn n)⁻¹ = sgn n := by cases n <;> norm_num

theorem sgn_mul_natAbs (v : ℤ) : sgn (decide (v < 0)) * (v.natAbs : ℚ) = v := by
  rw [← Int.cast_natCast, Int.natCast_natAbs]
  rcases lt_or_ge v 0 with h | h
  · simp [h, abs_of_neg h]
  · simp [not_lt.mpr h, abs_of_nonneg h]

theorem exists_of_isFinite {x : F32} (h : x.isFinite = true) : ∃ n e f, x = .finite n e f := by
  cases x with
  | finite n e f => exact ⟨n, e, f, rfl⟩
  | inf n => cases h
  | nan n p => cases h

/-- The significand times the power of two of the exponent field; the least exponent serves the zero field too. -/
theorem magUnits_eq (e : Fin 255) (f : BitVec 23) :
    F32.magUnits e f = (if e.val = 0 then f.toNat else 2 ^ 23 + f.toNat) * 2 ^ (e.val - 1) := by
  unfold F32.magUnits
  split
  · next h => simp [h]
  · rfl

theorem cast_units (n : Bool) (e : Fin 255) (f : BitVec 23) :
    (F32.units n e f : ℚ) = sgn n * F32.magUnits e f := by
  cases n <;> simp [F32.units]

theorem natAbs_units (n : Bool) (e : Fin 255) (f : BitVec 23) : (F32.units n e f).natAbs = F32.magUnits e f := by
  cases n <;> simp [F32.units]

theorem value_finite (n : Bool) (e : Fin 255) (f : BitVec 23) :
    value (.finite n e f) = sgn n * F32.magUnits e f / 2 ^ 149 := by
  have hpow : (2 : ℚ) ^ (((max e.val 1 : ℕ) : ℤ) - 150) = 2 ^ (e.val - 1) / 2 ^ 149 := by
    have hexp : ((max e.val 1 : ℕ) : ℤ) - 150 = ((e.val - 1 : ℕ) : ℤ) - (149 : ℕ) := by omega
    rw [hexp, zpow_sub₀ two_ne_zero, zpow_natCast, zpow_natCast]
  simp only [value, hpow, magUnits_eq, sgn]
  push_cast
  rw [mul_div_assoc, mul_div_assoc]
  norm_num

theorem value_eq_units (n : Bool) (e : Fin 255) (f : BitVec 23) :
    value (.finite n e f) = (F32.units n e f : ℚ) / 2 ^ 149 := by
  rw [value_finite, cast_units]

theorem value_eq_zero_iff (n : Bool) (e : Fin 255) (f : BitVec 23) :
    value (.finite n e f) = 0 ↔ F32.magUnits e f = 0 := by
  rw [value_finite]
  cases n <;> simp

theorem value_neg {x : F32} (hx : x.isFinite = true) : value x.neg = -value x := by
  obtain ⟨n, e, f, rfl⟩ := exists_of_isFinite hx
  cases n <;> simp [F32.neg, value_finite, neg_div]

theorem isFinite_neg (x : F32) : x.neg.isFinite = x.isFinite := by cases x <;> rfl

theorem isNaN_neg (x : F32) : x.neg.isNaN = x.isNaN := by cases x <;> rfl

theorem sign_neg (x : F32) : sign x.neg = !sign x := by cases x <;> rfl

/-! The data around a magnitude. -/

/-- Above `2^23` steps a datum is a whole number of steps. -/
theorem magUnits_dvd_or_lt (e : Fin 255) (f : BitVec 23) (l : ℕ) :
    2 ^ l ∣ F32.magUnits e f ∨ F32.magUnits e f < 2 ^ 23 * 2 ^ l := by
  rw [magUnits_eq]
  rcases le_or_gt l (e.val - 1) with h | h
  · exact .inl (Dvd.dvd.mul_left (pow_dvd_pow 2 h) _)
  · right
    have hsig : (if e.val = 0 then f.toNat else 2 ^ 23 + f.toNat) < 2 ^ 23 * 2 := by
      have := f.isLt
      split <;> omega
    calc (if e.val = 0 then f.toNat else 2 ^ 23 + f.toNat) * 2 ^ (e.val - 1)
        < 2 ^ 23 * 2 * 2 ^ (e.val - 1) := Nat.mul_lt_mul_of_pos_right hsig (by positivity)
      _ = 2 ^ 23 * 2 ^ (e.val - 1 + 1) := by ring
      _ ≤ 2 ^ 23 * 2 ^ l := Nat.mul_le_mul_left _ (Nat.pow_le_pow_right (by norm_num) h)

/-- A whole number of at most `2^24` steps, of at least `2^23` unless the step is one unit, is a datum if it is below
`2^128`; the parity of the fraction is that of the number of steps, or even after a carry. -/
theorem exists_magUnits_eq (m l : ℕ) (hm : m ≤ 2 ^ 24) (hl : l = 0 ∨ 2 ^ 23 ≤ m)
    (hv : m * 2 ^ l < 2 ^ 149 * 2 ^ 128) :
    ∃ e f, F32.magUnits e f = m * 2 ^ l ∧ (m % 2 = 0 → f.getLsbD 0 = false) := by
  have hlsb : ∀ k : ℕ, k % 2 = 0 → (BitVec.ofNat 23 k).getLsbD 0 = false := by
    intro k hk
    rw [BitVec.getLsbD_ofNat, Nat.testBit_zero, hk]
    rfl
  have hexp : ∀ k j : ℕ, 2 ^ 23 ≤ k → k * 2 ^ j < 2 ^ 149 * 2 ^ 128 → j < 254 := by
    intro k j hk hlt
    have h : 2 ^ 23 * 2 ^ j < 2 ^ 149 * 2 ^ 128 := lt_of_le_of_lt (Nat.mul_le_mul_right _ hk) hlt
    rw [← pow_add, ← pow_add] at h
    have := (Nat.pow_lt_pow_iff_right (by norm_num : 1 < 2)).mp h
    omega
  rcases lt_or_ge m (2 ^ 23) with h23 | h23
  · obtain rfl : l = 0 := by omega
    refine ⟨0, BitVec.ofNat 23 m, ?_, hlsb m⟩
    simp only [magUnits_eq, BitVec.toNat_ofNat, Nat.mod_eq_of_lt h23]
    simp
  rcases Nat.lt_or_eq_of_le hm with h24 | rfl
  · refine ⟨⟨l + 1, by have := hexp m l h23 hv; omega⟩, BitVec.ofNat 23 (m - 2 ^ 23), ?_, fun h => hlsb _ (by omega)⟩
    have hmod : (m - 2 ^ 23) % 2 ^ 23 = m - 2 ^ 23 := Nat.mod_eq_of_lt (by omega)
    simp only [magUnits_eq, BitVec.toNat_ofNat, hmod, Nat.add_sub_cancel, Nat.add_sub_cancel' h23]
    simp
  · have hcarry : 2 ^ 24 * 2 ^ l = 2 ^ 23 * 2 ^ (l + 1) := by ring
    have := hexp (2 ^ 23) (l + 1) le_rfl (hcarry ▸ hv)
    refine ⟨⟨l + 2, by omega⟩, 0#23, ?_, fun _ => rfl⟩
    rw [hcarry]
    simp [magUnits_eq]

/-- Packing the magnitude of a datum gives the datum back. -/
theorem pack_magUnits (n : Bool) (e : Fin 255) (f : BitVec 23) :
    F32.pack n (F32.magUnits e f) = .finite n e f := by
  have hf := f.isLt
  by_cases he : e.val = 0
  · obtain rfl : e = 0 := Fin.ext he
    simp [F32.pack, F32.magUnits, hf]
  have hmag : F32.magUnits e f = (2 ^ 23 + f.toNat) * 2 ^ (e.val - 1) := by simp [F32.magUnits, he]
  have hpos : 0 < 2 ^ (e.val - 1) := Nat.two_pow_pos _
  have hlow : 2 ^ (23 + (e.val - 1)) ≤ F32.magUnits e f := by
    rw [hmag, pow_add]
    exact Nat.mul_le_mul_right _ (by omega)
  have hhigh : F32.magUnits e f < 2 ^ (23 + (e.val - 1) + 1) := by
    calc F32.magUnits e f = (2 ^ 23 + f.toNat) * 2 ^ (e.val - 1) := hmag
      _ < 2 ^ 24 * 2 ^ (e.val - 1) := Nat.mul_lt_mul_of_pos_right (by omega) hpos
      _ = 2 ^ (23 + (e.val - 1) + 1) := by ring
  have hnormal : ¬ F32.magUnits e f < 2 ^ 23 :=
    not_lt.mpr (le_trans (Nat.pow_le_pow_right (by norm_num) (by omega)) hlow)
  have hexp : Nat.log2 (F32.magUnits e f) - 23 = e.val - 1 := by
    rw [(Nat.log2_eq_iff (by omega)).mpr ⟨hlow, hhigh⟩]
    omega
  have hsucc : e.val - 1 + 1 = e.val := by omega
  have hfrac : F32.magUnits e f / 2 ^ (e.val - 1) - 2 ^ 23 = f.toNat := by
    rw [hmag, Nat.mul_div_cancel _ hpos, Nat.add_sub_cancel_left]
  have hfin : Fin.ofNat 255 e.val = e := Fin.ext (Nat.mod_eq_of_lt e.isLt)
  simp only [F32.pack, hnormal, if_false, hexp, hsucc, e.isLt, if_true, hfrac, hfin, BitVec.ofNat_toNat,
    BitVec.setWidth_eq]

/-- From `2^128` on the magnitude packs to an infinity. -/
theorem pack_of_le (n : Bool) (v : ℕ) (hv : 2 ^ 149 * 2 ^ 128 ≤ v) : F32.pack n v = .inf n := by
  have h23 : ¬ v < 2 ^ 23 := not_lt.mpr (le_trans (by norm_num) hv)
  have hlog : ∀ k, 2 ^ k ≤ v → k ≤ Nat.log2 v := fun k hk => by
    rw [Nat.log2_eq_log_two]
    exact Nat.le_log_of_pow_le (by norm_num) hk
  have hexp := hlog (149 + 128) (pow_add 2 149 128 ▸ hv)
  simp only [F32.pack, h23, if_false]
  rw [if_neg (by omega)]

theorem sign_pack (n : Bool) (v : ℕ) : sign (F32.pack n v) = n := by
  simp only [F32.pack]
  split
  · rfl
  · split <;> rfl

theorem sign_round (n : Bool) (num den : ℕ) : sign (F32.round n num den) = n := sign_pack n _

/-! Rounding to a whole number of steps. -/

/-- `m` steps `s` are nearest to `q` among all whole numbers of steps, `m` even when a tie. -/
def NearestSteps (q s : ℚ) (m : ℕ) : Prop := |q - m * s| ≤ s / 2 ∧ (|q - m * s| = s / 2 → m % 2 = 0)

theorem roundDiv_nearest (a b : ℕ) (hb : 0 < b) : NearestSteps (a / b) 1 (roundDiv a b) := by
  have hbq : (0 : ℚ) < b := by exact_mod_cast hb
  have hdiv : (a : ℚ) / b = (a / b : ℕ) + ((a % b : ℕ) : ℚ) / b := by
    rw [div_eq_iff hbq.ne', add_mul, div_mul_cancel₀ _ hbq.ne']
    exact_mod_cast (Nat.div_add_mod' a b).symm
  have hr0 : (0 : ℚ) ≤ ((a % b : ℕ) : ℚ) / b := by positivity
  have hr1 : ((a % b : ℕ) : ℚ) / b < 1 := by
    rw [div_lt_one hbq]
    exact_mod_cast Nat.mod_lt a hb
  rw [NearestSteps, hdiv]
  generalize hr : ((a % b : ℕ) : ℚ) / b = r at hr0 hr1
  unfold roundDiv
  split
  · next h =>
    have hlt : r < 1 / 2 := by
      rw [← hr, div_lt_iff₀ hbq]
      have : (2 : ℚ) * (a % b : ℕ) < b := by exact_mod_cast h
      linarith
    rw [abs_of_nonneg (by linarith)]
    exact ⟨by linarith, fun he => by linarith⟩
  split
  · next h =>
    have hgt : 1 / 2 < r := by
      rw [← hr, lt_div_iff₀ hbq]
      have : (b : ℚ) < 2 * (a % b : ℕ) := by exact_mod_cast h
      linarith
    push_cast
    rw [abs_of_neg (by linarith)]
    exact ⟨by linarith, fun he => by linarith⟩
  · next h1 h2 =>
    have htie : r = 1 / 2 := by
      rw [← hr, div_eq_iff hbq.ne']
      have : (2 : ℚ) * (a % b : ℕ) = b := by exact_mod_cast (by omega : 2 * (a % b) = b)
      linarith
    refine ⟨?_, fun _ => by omega⟩
    rcases Nat.mod_two_eq_zero_or_one (a / b) with hp | hp <;> rw [hp, htie] <;> push_cast
    · rw [abs_of_nonneg (by linarith)]
      linarith
    · rw [abs_of_neg (by linarith)]
      linarith

theorem NearestSteps.scale {q s : ℚ} {m : ℕ} (h : NearestSteps q 1 m) (hs : 0 < s) : NearestSteps (q * s) s m := by
  obtain ⟨hle, htie⟩ := h
  have habs : |q * s - m * s| = |q - m * 1| * s := by rw [mul_one, ← sub_mul, abs_mul, abs_of_pos hs]
  rw [NearestSteps, habs]
  refine ⟨by nlinarith, fun he => htie ?_⟩
  exact mul_right_cancel₀ hs.ne' (by rw [he]; ring)

/-- Another whole number of steps is no nearer, and as near only in a tie. -/
theorem NearestSteps.le_of_int {q s : ℚ} {m : ℕ} (h : NearestSteps q s m) (hs : 0 < s) (k : ℤ) :
    |q - m * s| ≤ |q - k * s| ∧ (|q - k * s| = |q - m * s| → (k : ℚ) * s ≠ m * s → m % 2 = 0) := by
  obtain ⟨hle, htie⟩ := h
  by_cases hk : k = m
  · subst hk
    exact ⟨le_rfl, fun _ hne => absurd rfl hne⟩
  have hapart : s ≤ |(k : ℚ) * s - m * s| := by
    rw [← sub_mul, abs_mul, abs_of_pos hs]
    have : (1 : ℚ) ≤ |(k : ℚ) - m| := by exact_mod_cast Int.one_le_abs (sub_ne_zero.mpr hk)
    nlinarith
  have htri : |(k : ℚ) * s - m * s| ≤ |q - k * s| + |q - m * s| := by
    have := abs_sub_le ((k : ℚ) * s) q (m * s)
    rwa [abs_sub_comm ((k : ℚ) * s) q] at this
  exact ⟨by linarith, fun he _ => htie (by linarith)⟩

/-- The nearest whole number of steps is nearest among all data, when `q` is at least `2^23` steps or the step is one
unit: between whole steps there are no data. -/
theorem NearestSteps.le_of_datum {q : ℚ} {l m : ℕ} (h : NearestSteps q (2 ^ l) m)
    (hlow : l = 0 ∨ 2 ^ 23 * 2 ^ l ≤ q) (u : ℤ) (hu : 2 ^ l ∣ u.natAbs ∨ u.natAbs < 2 ^ 23 * 2 ^ l) :
    |q - m * 2 ^ l| ≤ |q - u| ∧ (|q - u| = |q - m * 2 ^ l| → (u : ℚ) ≠ m * 2 ^ l → m % 2 = 0) := by
  have hs : (0 : ℚ) < 2 ^ l := by positivity
  by_cases hdvd : 2 ^ l ∣ u.natAbs
  · obtain ⟨k, hk⟩ : ((2 ^ l : ℕ) : ℤ) ∣ u := Int.natCast_dvd.mpr hdvd
    have hcast : (u : ℚ) = k * 2 ^ l := by rw [hk]; push_cast; ring
    rw [hcast]
    exact h.le_of_int hs k
  · have hlt := hu.resolve_left hdvd
    have hl : l ≠ 0 := fun h0 => hdvd (by simp [h0])
    have hq := hlow.resolve_left hl
    have hu' : (u : ℚ) < 2 ^ 23 * 2 ^ l := by
      have h1 : u < 2 ^ 23 * 2 ^ l := by
        have : (u.natAbs : ℤ) < 2 ^ 23 * 2 ^ l := by exact_mod_cast hlt
        omega
      exact_mod_cast h1
    have hbelow := (h.le_of_int hs (2 ^ 23)).1
    rw [Int.cast_pow, Int.cast_ofNat, abs_of_nonneg (by linarith : 0 ≤ q - 2 ^ 23 * 2 ^ l)] at hbelow
    rw [abs_of_nonneg (by linarith : 0 ≤ q - u)]
    exact ⟨by linarith, fun he => by linarith⟩

/-! Rounding to a datum. -/

/-- The step of the data around `q` units: `q` is below `2^24` steps, and at least `2^23` unless the step
is a unit. -/
theorem ulpLog_bounds (q : ℕ) :
    q < 2 ^ 24 * 2 ^ F32.ulpLog q ∧ (F32.ulpLog q = 0 ∨ 2 ^ 23 * 2 ^ F32.ulpLog q ≤ q) := by
  unfold F32.ulpLog
  split
  · next h => exact ⟨by simpa using h, .inl rfl⟩
  · next h =>
    have hq : q ≠ 0 := by omega
    have hlog : 24 ≤ Nat.log2 q := (Nat.le_log2 hq).mpr (not_lt.mp h)
    have hlow : 2 ^ Nat.log2 q ≤ q := (Nat.le_log2 hq).mp le_rfl
    have hhigh : q < 2 ^ (Nat.log2 q + 1) := (Nat.log2_lt hq).mp (Nat.lt_succ_self _)
    rw [← pow_add, ← pow_add, show 24 + (Nat.log2 q - 23) = Nat.log2 q + 1 by omega,
      show 23 + (Nat.log2 q - 23) = Nat.log2 q by omega]
    exact ⟨hhigh, .inr hlow⟩

/-- The number of steps `F32.round` rounds to. -/
def roundSteps (num den : ℕ) : ℕ := roundDiv num (den * 2 ^ F32.ulpLog (num / den))

theorem round_eq_pack (n : Bool) (num den : ℕ) :
    F32.round n num den = F32.pack n (roundSteps num den * 2 ^ F32.ulpLog (num / den)) := rfl

theorem roundSteps_nearest (num den : ℕ) (hden : 0 < den) :
    NearestSteps (num / den) (2 ^ F32.ulpLog (num / den)) (roundSteps num den) := by
  have h := (roundDiv_nearest num (den * 2 ^ F32.ulpLog (num / den)) (by positivity)).scale
    (s := 2 ^ F32.ulpLog (num / den)) (by positivity)
  have hq : (num : ℚ) / ((den * 2 ^ F32.ulpLog (num / den) : ℕ) : ℚ) * 2 ^ F32.ulpLog (num / den) = num / den := by
    push_cast
    rw [← div_div, div_mul_cancel₀ _ (by positivity)]
  rwa [hq] at h

/-- The same bounds of the exact quotient. -/
theorem exact_bounds (num den : ℕ) (hden : 0 < den) :
    (num / den : ℚ) < 2 ^ 24 * 2 ^ F32.ulpLog (num / den) ∧
    (F32.ulpLog (num / den) = 0 ∨ 2 ^ 23 * 2 ^ F32.ulpLog (num / den) ≤ (num / den : ℚ)) := by
  obtain ⟨hhigh, hlow⟩ := ulpLog_bounds (num / den)
  have hd : (0 : ℚ) < den := by exact_mod_cast hden
  rw [Nat.div_lt_iff_lt_mul hden] at hhigh
  rw [Nat.le_div_iff_mul_le hden] at hlow
  rw [div_lt_iff₀ hd, le_div_iff₀ hd]
  exact ⟨by exact_mod_cast hhigh, hlow.imp_right fun h => by exact_mod_cast h⟩

/-- The number of steps stays in the range of the exact quotient, its upper end included. -/
theorem NearestSteps.bounds {q : ℚ} {l m : ℕ} (h : NearestSteps q (2 ^ l) m) (hhigh : q < 2 ^ 24 * 2 ^ l)
    (hlow : l = 0 ∨ 2 ^ 23 * 2 ^ l ≤ q) : m ≤ 2 ^ 24 ∧ (l = 0 ∨ 2 ^ 23 ≤ m) := by
  have hs : (0 : ℚ) < 2 ^ l := by positivity
  obtain ⟨habove, hbelow⟩ := abs_le.mp h.1
  have hm : m < 2 ^ 24 + 1 := by
    have : (m : ℚ) * 2 ^ l < (2 ^ 24 + 1) * 2 ^ l := by linarith
    exact_mod_cast lt_of_mul_lt_mul_right this hs.le
  refine ⟨by omega, hlow.imp_right fun hq => ?_⟩
  have : (2 ^ 23 : ℚ) * 2 ^ l < (m + 1) * 2 ^ l := by linarith
  have hm' : 2 ^ 23 < m + 1 := by exact_mod_cast lt_of_mul_lt_mul_right this hs.le
  omega

/-- The rounded magnitude stays below `2^128` exactly when the exact one is below by more than half a step: the last
datum has an odd fraction, so the tie goes up. -/
theorem NearestSteps.lt_iff {q : ℚ} {l m : ℕ} (h : NearestSteps q (2 ^ l) m) (hhigh : q < 2 ^ 24 * 2 ^ l)
    (hlow : l = 0 ∨ 2 ^ 23 * 2 ^ l ≤ q) : m * 2 ^ l < 2 ^ 149 * 2 ^ 128 ↔ q < 2 ^ 149 * (2 ^ 128 - 2 ^ 103) := by
  obtain ⟨hmhigh, hmlow⟩ := h.bounds hhigh hlow
  rcases lt_trichotomy l 253 with hl | rfl | hl
  · have hpow : 2 ^ l ≤ 2 ^ 252 := Nat.pow_le_pow_right (by norm_num) (by omega)
    have hpowq : (2 : ℚ) ^ l ≤ 2 ^ 252 := by exact_mod_cast hpow
    have hm : m * 2 ^ l ≤ 2 ^ 24 * 2 ^ 252 := Nat.mul_le_mul hmhigh hpow
    exact ⟨fun _ => by linarith, fun _ => lt_of_le_of_lt hm (by norm_num)⟩
  · obtain ⟨hle, htie⟩ := h
    obtain ⟨habove, hbelow⟩ := abs_le.mp hle
    have hsteps : m * 2 ^ 253 < 2 ^ 149 * 2 ^ 128 ↔ m < 2 ^ 24 := by
      rw [show 2 ^ 149 * 2 ^ 128 = 2 ^ 24 * 2 ^ 253 by norm_num]
      exact Nat.mul_lt_mul_right (by positivity)
    rw [hsteps]
    constructor
    · intro hm
      by_contra hq
      have hm1 : (m : ℚ) + 1 ≤ 2 ^ 24 := by exact_mod_cast hm
      have hgap : q - m * 2 ^ 253 = 2 ^ 253 / 2 := by linarith
      have hlast : (m : ℚ) + 1 = 2 ^ 24 := by linarith
      have heven := htie (by rw [hgap]; exact abs_of_pos (by positivity))
      have hm2 : m + 1 = 2 ^ 24 := by exact_mod_cast hlast
      omega
    · intro hq
      have hlt : (m : ℚ) < 2 ^ 24 := by linarith
      exact_mod_cast hlt
  · have hpow : 2 ^ 254 ≤ 2 ^ l := Nat.pow_le_pow_right (by norm_num) hl
    have hpowq : (2 : ℚ) ^ 254 ≤ 2 ^ l := by exact_mod_cast hpow
    have hm := Nat.mul_le_mul (hmlow.resolve_left (by omega)) hpow
    have hq := hlow.resolve_left (by omega)
    exact ⟨fun hlt => absurd (lt_of_le_of_lt hm hlt) (by norm_num), fun hlt => by linarith⟩

/-- A finite datum as units under a given sign, a whole number of steps unless it is below `2^23` of them. -/
theorem exists_units_of_isFinite (n : Bool) (l : ℕ) {z : F32} (hz : z.isFinite = true) :
    ∃ u : ℤ, value z = sgn n * u / 2 ^ 149 ∧ (2 ^ l ∣ u.natAbs ∨ u.natAbs < 2 ^ 23 * 2 ^ l) := by
  obtain ⟨k, e, f, rfl⟩ := exists_of_isFinite hz
  refine ⟨F32.units (n != k) e f, ?_, by rw [natAbs_units]; exact magUnits_dvd_or_lt e f l⟩
  rw [value_finite, cast_units, sgn_bne, mul_assoc, ← mul_assoc, sgn_mul_self, one_mul]

theorem abs_signed (n : Bool) {q : ℚ} (hq : 0 ≤ q) : |sgn n * q / 2 ^ 149| = q / 2 ^ 149 := by
  rw [abs_div, abs_mul, abs_sgn, one_mul, abs_of_nonneg hq, abs_of_pos (by positivity)]

theorem abs_signed_sub (n : Bool) (q u : ℚ) :
    |sgn n * q / 2 ^ 149 - sgn n * u / 2 ^ 149| = |q - u| / 2 ^ 149 := by
  rw [← sub_div, ← mul_sub, abs_div, abs_mul, abs_sgn, one_mul, abs_of_pos (by positivity : (0 : ℚ) < 2 ^ 149)]

/-- A datum of the nearest number of steps is the exact value rounded. -/
theorem NearestSteps.roundsTo_finite {q : ℚ} {l m : ℕ} (h : NearestSteps q (2 ^ l) m) (hq0 : 0 ≤ q)
    (hlow : l = 0 ∨ 2 ^ 23 * 2 ^ l ≤ q) (hq : q < 2 ^ 149 * (2 ^ 128 - 2 ^ 103)) (n : Bool) {e : Fin 255}
    {f : BitVec 23} (hmag : F32.magUnits e f = m * 2 ^ l) (heven : m % 2 = 0 → f.getLsbD 0 = false) :
    roundsTo (sgn n * q / 2 ^ 149) (.finite n e f) := by
  have hval : value (.finite n e f) = sgn n * (m * 2 ^ l) / 2 ^ 149 := by
    rw [value_finite, hmag]
    push_cast
    rfl
  refine ⟨?_, fun z hz => ?_, fun z hz htie hne => ?_⟩
  · rw [abs_signed n hq0, div_lt_iff₀' (by positivity)]
    exact hq
  · obtain ⟨u, hu, hdatum⟩ := exists_units_of_isFinite n l hz
    rw [hval, hu, abs_signed_sub, abs_signed_sub]
    exact div_le_div_of_nonneg_right (h.le_of_datum hlow u hdatum).1 (by positivity)
  · obtain ⟨u, hu, hdatum⟩ := exists_units_of_isFinite n l hz
    rw [hval, hu, abs_signed_sub, abs_signed_sub, div_left_inj' (by positivity)] at htie
    exact heven ((h.le_of_datum hlow u hdatum).2 htie fun heq => hne (by rw [hu, hval, heq]))

/-- From half a step past the last datum on, the infinity of the sign is the exact value rounded. -/
theorem roundsTo_inf {q : ℚ} (hq : 2 ^ 149 * (2 ^ 128 - 2 ^ 103) ≤ q) (n : Bool) :
    roundsTo (sgn n * q / 2 ^ 149) (.inf n) := by
  have hq0 : 0 < q := lt_of_lt_of_le (by norm_num) hq
  have hpos : 0 < q / 2 ^ 149 := by positivity
  refine ⟨?_, ?_⟩
  · rw [abs_signed n hq0.le, le_div_iff₀' (by positivity)]
    exact hq
  · cases n
    · simp [hpos.le]
    · simp [neg_div, hpos]

/-- The quotient of `num` units by `den`, with the sign of `n`, rounds to the datum `F32.round` gives (R16). -/
theorem roundsTo_round (n : Bool) (num den : ℕ) (hden : 0 < den) :
    roundsTo (sgn n * (num / den) / 2 ^ 149) (F32.round n num den) := by
  have hnear := roundSteps_nearest num den hden
  obtain ⟨hhigh, hlow⟩ := exact_bounds num den hden
  obtain ⟨hmhigh, hmlow⟩ := hnear.bounds hhigh hlow
  have hlt := hnear.lt_iff hhigh hlow
  rw [round_eq_pack]
  by_cases hfin : roundSteps num den * 2 ^ F32.ulpLog (num / den) < 2 ^ 149 * 2 ^ 128
  · obtain ⟨e, f, hmag, heven⟩ := exists_magUnits_eq _ _ hmhigh hmlow hfin
    rw [← hmag, pack_magUnits]
    exact hnear.roundsTo_finite (by positivity) hlow (hlt.mp hfin) n hmag heven
  · rw [pack_of_le n _ (not_lt.mp hfin)]
    exact roundsTo_inf (not_lt.mp (mt hlt.mpr hfin)) n

theorem roundsTo_zero (n : Bool) : roundsTo 0 (.finite n 0 0#23) := by
  have h := roundsTo_round n 0 1 one_pos
  have hz : F32.round n 0 1 = .finite n 0 0#23 := by cases n <;> decide
  rw [hz] at h
  simpa using h

/-! The five operations on finite data (R16). -/

theorem add_finite (n m : Bool) (e g : Fin 255) (f h : BitVec 23) :
    F32.add (.finite n e f) (.finite m g h) =
      if F32.units n e f + F32.units m g h = 0 then .finite (n && m) 0 0#23
      else
        F32.round (decide (F32.units n e f + F32.units m g h < 0)) (F32.units n e f + F32.units m g h).natAbs 1 := rfl

theorem mul_finite (n m : Bool) (e g : Fin 255) (f h : BitVec 23) :
    F32.mul (.finite n e f) (.finite m g h) =
      F32.round (n != m) (F32.magUnits e f * F32.magUnits g h) (2 ^ 149) := rfl

theorem div_finite (n m : Bool) (e g : Fin 255) (f h : BitVec 23) (h0 : F32.magUnits g h ≠ 0) :
    F32.div (.finite n e f) (.finite m g h) =
      F32.round (n != m) (F32.magUnits e f * 2 ^ 149) (F32.magUnits g h) := if_neg h0

/-- The exact sum in units. -/
theorem value_add_value (n m : Bool) (e g : Fin 255) (f h : BitVec 23) :
    value (.finite n e f) + value (.finite m g h) =
      ((F32.units n e f + F32.units m g h : ℤ) : ℚ) / 2 ^ 149 := by
  rw [value_eq_units, value_eq_units, ← add_div, Int.cast_add]

/-- Rounding an integer number of units. -/
theorem roundsTo_round_int (v : ℤ) : roundsTo ((v : ℚ) / 2 ^ 149) (F32.round (decide (v < 0)) v.natAbs 1) := by
  have h := roundsTo_round (decide (v < 0)) v.natAbs 1 one_pos
  rwa [Nat.cast_one, div_one, sgn_mul_natAbs] at h

theorem add_of_value_zero {x y : F32} (hx : x.isFinite = true) (hy : y.isFinite = true)
    (h : value x + value y = 0) : x.add y = .finite (sign x && sign y) 0 0#23 := by
  obtain ⟨n, e, f, rfl⟩ := exists_of_isFinite hx
  obtain ⟨m, g, k, rfl⟩ := exists_of_isFinite hy
  rw [value_add_value, div_eq_zero_iff, or_iff_left (by positivity)] at h
  rw [add_finite, if_pos (by exact_mod_cast h)]
  rfl

theorem roundsTo_add {x y : F32} (hx : x.isFinite = true) (hy : y.isFinite = true) :
    roundsTo (value x + value y) (x.add y) := by
  by_cases h0 : value x + value y = 0
  · rw [add_of_value_zero hx hy h0, h0]
    exact roundsTo_zero _
  · obtain ⟨n, e, f, rfl⟩ := exists_of_isFinite hx
    obtain ⟨m, g, k, rfl⟩ := exists_of_isFinite hy
    rw [value_add_value] at h0 ⊢
    rw [add_finite, if_neg fun h => h0 (by rw [h]; simp)]
    exact roundsTo_round_int _

theorem roundsTo_mul {x y : F32} (hx : x.isFinite = true) (hy : y.isFinite = true) :
    roundsTo (value x * value y) (x.mul y) := by
  obtain ⟨n, e, f, rfl⟩ := exists_of_isFinite hx
  obtain ⟨m, g, k, rfl⟩ := exists_of_isFinite hy
  have h := roundsTo_round (n != m) (F32.magUnits e f * F32.magUnits g k) (2 ^ 149) (by positivity)
  rw [mul_finite]
  convert h using 1
  rw [value_finite, value_finite, sgn_bne]
  push_cast
  ring

theorem roundsTo_div {x y : F32} (hx : x.isFinite = true) (hy : y.isFinite = true) (h0 : value y ≠ 0) :
    roundsTo (value x / value y) (x.div y) := by
  obtain ⟨n, e, f, rfl⟩ := exists_of_isFinite hx
  obtain ⟨m, g, k, rfl⟩ := exists_of_isFinite hy
  have hmag := mt (value_eq_zero_iff m g k).mpr h0
  have h := roundsTo_round (n != m) (F32.magUnits e f * 2 ^ 149) (F32.magUnits g k) (Nat.pos_of_ne_zero hmag)
  rw [div_finite _ _ _ _ _ _ hmag]
  convert h using 1
  have hk : (F32.magUnits g k : ℚ) ≠ 0 := by exact_mod_cast hmag
  rw [value_finite, value_finite, sgn_bne, div_div_div_cancel_right₀ (by positivity), mul_div_mul_comm,
    div_eq_mul_inv (sgn n), inv_sgn, Nat.cast_mul, Nat.cast_pow, Nat.cast_ofNat]
  field_simp

theorem roundsTo_ofInt (i : ℤ) : roundsTo (i : ℚ) (F32.ofInt i) := by
  have h := roundsTo_round (decide (i < 0)) (i.natAbs * 2 ^ 149) 1 one_pos
  rw [F32.ofInt]
  convert h using 1
  rw [Nat.cast_one, div_one, Nat.cast_mul, ← mul_assoc, sgn_mul_natAbs]
  push_cast
  exact (mul_div_cancel_right₀ _ (by positivity)).symm

theorem sign_mul {x y : F32} (hx : x.isFinite = true) (hy : y.isFinite = true) :
    sign (x.mul y) = (sign x ^^ sign y) := by
  obtain ⟨n, e, f, rfl⟩ := exists_of_isFinite hx
  obtain ⟨m, g, k, rfl⟩ := exists_of_isFinite hy
  exact sign_round _ _ _

theorem sign_div {x y : F32} (hx : x.isFinite = true) (hy : y.isFinite = true) (h0 : value y ≠ 0) :
    sign (x.div y) = (sign x ^^ sign y) := by
  obtain ⟨n, e, f, rfl⟩ := exists_of_isFinite hx
  obtain ⟨m, g, k, rfl⟩ := exists_of_isFinite hy
  rw [div_finite _ _ _ _ _ _ (mt (value_eq_zero_iff m g k).mpr h0)]
  exact sign_round _ _ _

/-- Settles O6: every operation is `F32.round` of an exact quotient of units, and `roundsTo_round` says that this is
rounding to nearest; a difference is the sum with the negated term. -/
theorem arithmeticRoundsToNearestEven : Obligations.ArithmeticRoundsToNearestEven := by
  refine ⟨fun x y hx hy => ?_, roundsTo_ofInt⟩
  have hy' : y.neg.isFinite = true := (isFinite_neg y).trans hy
  have hsub : value x - value y = value x + value y.neg := by rw [value_neg hy, sub_eq_add_neg]
  refine ⟨roundsTo_add hx hy, ?_, roundsTo_mul hx hy, sign_mul hx hy,
    fun h0 => ⟨roundsTo_div hx hy h0, sign_div hx hy h0⟩, add_of_value_zero hx hy, fun h0 => ?_⟩
  · rw [hsub]
    exact roundsTo_add hx hy'
  · rw [← sign_neg]
    exact add_of_value_zero hx hy' (hsub ▸ h0)

/-! Comparisons (R17). -/

theorem value_lt_value_iff (n m : Bool) (e g : Fin 255) (f h : BitVec 23) :
    value (.finite n e f) < value (.finite m g h) ↔ F32.units n e f < F32.units m g h := by
  rw [value_eq_units, value_eq_units, div_lt_div_iff_of_pos_right (by positivity), Int.cast_lt]

theorem lt_iff_value_lt {x y : F32} (hx : x.isFinite = true) (hy : y.isFinite = true) :
    F32.lt x y = true ↔ value x < value y := by
  obtain ⟨n, e, f, rfl⟩ := exists_of_isFinite hx
  obtain ⟨m, g, h, rfl⟩ := exists_of_isFinite hy
  rw [value_lt_value_iff]
  exact decide_eq_true_iff

theorem le_iff_value_le {x y : F32} (hx : x.isFinite = true) (hy : y.isFinite = true) :
    F32.le x y = true ↔ value x ≤ value y := by
  obtain ⟨n, e, f, rfl⟩ := exists_of_isFinite hx
  obtain ⟨m, g, h, rfl⟩ := exists_of_isFinite hy
  rw [← not_lt, value_lt_value_iff, not_lt]
  exact decide_eq_true_iff

theorem exists_of_isNaN {x : F32} (h : x.isNaN = true) : ∃ n p, x = .nan n p := by
  cases x with
  | finite n e f => cases h
  | inf n => cases h
  | nan n p => exact ⟨n, p, rfl⟩

theorem lt_le_of_isNaN {x y : F32} (h : x.isNaN = true ∨ y.isNaN = true) :
    F32.lt x y = false ∧ F32.le x y = false := by
  rcases h with h | h <;> obtain ⟨n, p, rfl⟩ := exists_of_isNaN h
  · exact ⟨rfl, rfl⟩
  · cases x <;> exact ⟨rfl, rfl⟩

theorem min_of_lt {x y : F32} (h : F32.lt y x = true) : F32.min x y = y := if_pos h

theorem min_of_not_lt {x y : F32} (h : F32.lt y x = false) : F32.min x y = x := if_neg (by simp [h])

/-- Settles O7: finite data compare by their units, and a comparison with an infinity or a NaN is a case of its
definition. -/
theorem comparisonsFollowValues : Obligations.ComparisonsFollowValues := by
  refine ⟨fun x y hx hy => ⟨lt_iff_value_lt hx hy, le_iff_value_le hx hy⟩, fun x y h => lt_le_of_isNaN h,
    fun x hx => ?_, fun n m => ⟨rfl, rfl⟩, fun x y => ⟨fun h => ?_, fun h => ?_, min_of_lt, min_of_not_lt⟩⟩
  · obtain ⟨n, e, f, rfl⟩ := exists_of_isFinite hx
    exact ⟨rfl, rfl, rfl, rfl, rfl, rfl, rfl, rfl⟩
  · exact min_of_not_lt (lt_le_of_isNaN (.inr h)).1
  · exact min_of_not_lt (lt_le_of_isNaN (.inl h)).1

/-! Special operands (R16, R17). -/

/-- A NaN operand is passed to the free choice of a NaN by each of the three basic operations. -/
theorem isNaN_of_operand {x y : F32} (h : x.isNaN = true ∨ y.isNaN = true) :
    (x.add y).isNaN = true ∧ (x.mul y).isNaN = true ∧ (x.div y).isNaN = true := by
  rcases h with h | h <;> obtain ⟨n, p, rfl⟩ := exists_of_isNaN h
  · exact ⟨rfl, rfl, rfl⟩
  · cases x <;> exact ⟨rfl, rfl, rfl⟩

theorem inf_mul_finite (n m : Bool) (e : Fin 255) (f : BitVec 23) :
    F32.mul (.inf n) (.finite m e f) =
      if F32.magUnits e f = 0 then F32.freeNaN .mul (.inf n) (.finite m e f) else .inf (n != m) := rfl

theorem finite_mul_inf (n m : Bool) (e : Fin 255) (f : BitVec 23) :
    F32.mul (.finite m e f) (.inf n) =
      if F32.magUnits e f = 0 then F32.freeNaN .mul (.finite m e f) (.inf n) else .inf (m != n) := rfl

/-- An infinity and a datum that is not zero multiply to the infinity of the product sign. -/
theorem inf_mul_of_value_ne_zero (n : Bool) {x : F32} (hx : x.isFinite = true) (h0 : value x ≠ 0) :
    F32.mul (.inf n) x = .inf (n ^^ sign x) ∧ F32.mul x (.inf n) = .inf (n ^^ sign x) := by
  obtain ⟨m, e, f, rfl⟩ := exists_of_isFinite hx
  have hmag := mt (value_eq_zero_iff m e f).mpr h0
  rw [inf_mul_finite, finite_mul_inf, if_neg hmag, if_neg hmag]
  exact ⟨rfl, congrArg F32.inf (Bool.xor_comm m n)⟩

/-- An infinity and a zero have no product. -/
theorem inf_mul_of_value_zero (n : Bool) {x : F32} (hx : x.isFinite = true) (h0 : value x = 0) :
    (F32.mul (.inf n) x).isNaN = true ∧ (F32.mul x (.inf n)).isNaN = true := by
  obtain ⟨m, e, f, rfl⟩ := exists_of_isFinite hx
  have hmag := (value_eq_zero_iff m e f).mp h0
  rw [inf_mul_finite, finite_mul_inf, if_pos hmag, if_pos hmag]
  exact ⟨rfl, rfl⟩

/-- Division of a finite datum by a zero. -/
theorem div_of_value_zero {x y : F32} (hx : x.isFinite = true) (hy : y.isFinite = true) (h0 : value y = 0) :
    (value x ≠ 0 → F32.div x y = .inf (sign x ^^ sign y)) ∧ (value x = 0 → (F32.div x y).isNaN = true) := by
  obtain ⟨n, e, f, rfl⟩ := exists_of_isFinite hx
  obtain ⟨m, g, k, rfl⟩ := exists_of_isFinite hy
  have hdiv : F32.div (.finite n e f) (.finite m g k) =
      if F32.magUnits e f = 0 then F32.freeNaN .div (.finite n e f) (.finite m g k) else .inf (n != m) :=
    if_pos ((value_eq_zero_iff m g k).mp h0)
  rw [hdiv]
  refine ⟨fun h => ?_, fun h => ?_⟩
  · exact if_neg (mt (value_eq_zero_iff n e f).mpr h)
  · rw [if_pos ((value_eq_zero_iff n e f).mp h)]
    rfl

/-- Settles O9: a NaN operand first, then the infinities of the two operations that can lose them, then zero divisors;
the other clauses are cases of the definitions. -/
theorem specialOperands : Obligations.SpecialOperands := by
  refine ⟨fun x y h => ?_, fun n => ?_, fun n m => ⟨rfl, rfl⟩, fun n x hx => ?_,
    fun x y hx hy h0 => div_of_value_zero hx hy h0, fun x => ?_, by decide, by decide, by decide⟩
  · obtain ⟨hadd, hmul, hdiv⟩ := isNaN_of_operand h
    exact ⟨hadd, (isNaN_of_operand (h.imp_right (isNaN_neg y).trans)).1, hmul, hdiv⟩
  · cases n <;> exact ⟨rfl, rfl, rfl, rfl⟩
  · have hmul := inf_mul_of_value_ne_zero n hx
    have hnan := inf_mul_of_value_zero n hx
    obtain ⟨m, e, f, rfl⟩ := exists_of_isFinite hx
    exact ⟨rfl, rfl, rfl, rfl, hmul, hnan, rfl, congrArg (F32.finite · 0 0#23) (Bool.xor_comm m n)⟩
  · cases x with
    | finite n e f | inf n | nan n p => cases n <;> rfl

/-! Derived parameters (R10, R11). -/

/-- The literals of R11 that the derived parameters read. -/
theorem literals_of_sourceLiterals {p : Params} (h : p.sourceLiterals = true) :
    p.fallbackDiv = 2#16 ∧ p.measPeriods = F32.two := by
  simp only [Params.sourceLiterals, Bool.and_eq_true, decide_eq_true_eq] at h
  obtain ⟨⟨⟨⟨⟨hdiv, _⟩, _⟩, _⟩, _⟩, hmeas⟩ := h
  exact ⟨hdiv, hmeas⟩

/-- Settles O10: the two literals put in, each parameter is its formula. -/
theorem derivedParameters : Obligations.DerivedParameters := by
  intro p h
  obtain ⟨hdiv, hmeas⟩ := literals_of_sourceLiterals h
  refine ⟨?_, rfl, rfl, ?_, fun hd f => ?_⟩
  · rw [Params.half, hdiv, BitVec.toNat_udiv]
    rfl
  · rw [Params.tMeas, hmeas]
  · rw [Params.axisDutyOf, hd]

end Sys2Proof.Proofs

/-!
Steps: what a step runs (spec/20_memory R78, R79; spec/60_exceptions R304), and that every operation answers.
-/

namespace Sys2Proof.Proofs

open Sys2Proof.Machine Sys2Proof.Claims

/-- Taking the first arrival off leaves the state the statements call `popped`. -/
theorem takeArrival_eq_popped {a : Arrival} {rest : List Arrival} {s : State} (h : s.agenda = a :: rest) :
    takeArrival a s = popped a rest s := by
  cases a with
  | upd96 w | cmd48 w => simp [takeArrival, popped, h]
  | uop8 c o =>
    by_cases hc : c = 0x80#8 <;> simp [takeArrival, popped, h, isTimEvent, hc]

/-- The cycle is due before an arrival exactly when the arrival must wait for it. -/
theorem cycleDue_iff_mustWait {a : Arrival} {rest : List Arrival} {s : State} (h : s.agenda = a :: rest) :
    cycleDue s = true ↔ mustWait a s := by
  cases a with
  | upd96 w | cmd48 w | uop8 c o => simp [cycleDue, mustWait, h, waitsForCycle, isTimEvent]

theorem cycleDue_of_agenda_nil {s : State} (h : s.agenda = []) : cycleDue s = s.tim.uif := by
  simp [cycleDue, h]

/-- A step whose arrival need not wait takes it, and runs it if it is enabled. -/
theorem step_of_arrival {s : State} {a : Arrival} {rest : List Arrival} (h : s.agenda = a :: rest)
    (hw : ¬ mustWait a s) :
    step s = if enabled a (popped a rest s) then runArrival a (popped a rest s) else .next (popped a rest s) := by
  have hd : cycleDue s = false := by simpa using mt (cycleDue_iff_mustWait h).mp hw
  have hturn : nextTurn s = some (a, popped a rest s) := by simp [nextTurn, hd, h, takeArrival_eq_popped h]
  rw [step, hturn]

/-- A step whose cycle is due runs it on the word of the event port. -/
theorem step_of_cycleDue {s : State} (h : cycleDue s = true) :
    step s = exec (decodeUpd (eventWordNow s)) { eventWordRead s with owed := true } := by
  have hturn : nextTurn s = some (.upd96 (eventWordNow s), takeDue s) := by simp [nextTurn, h]
  have huif : (takeDue s).tim.uif = true := by
    simp only [cycleDue, Bool.and_eq_true] at h
    exact h.1
  rw [step, hturn]
  simp only [enabled, huif, if_true]
  rfl

theorem popped_tim (a : Arrival) (rest : List Arrival) (s : State) : (popped a rest s).tim = s.tim := by
  cases a <;> rfl

/-- Only an event word without an event is not enabled. -/
theorem enabled_popped {a : Arrival} (rest : List Arrival) {s : State}
    (h : ∀ w, a = .upd96 w → s.tim.uif = true) : enabled a (popped a rest s) = true := by
  cases a with
  | upd96 w => exact (congrArg Tim.uif (popped_tim _ rest s)).trans (h w rfl)
  | cmd48 w | uop8 c o => rfl

/-- Settles O3: a step has three turns, the arrival, the cycle that is due, and none. -/
theorem stepRunsDecoded : Obligations.StepRunsDecoded := by
  refine ⟨fun s a rest i h hi hw hu => ?_, fun s w rest h hu => ?_, fun s hu h => step_of_cycleDue ?_,
    fun s h hu => ?_, fun s c o rest h hw hc => ?_⟩
  · rw [step_of_arrival h hw, enabled_popped rest hu, if_pos rfl, runArrival, hi]
  · have hw : ¬ mustWait (.upd96 w) s := fun hwait => hwait.2.2
    have hoff : enabled (.upd96 w) (popped (.upd96 w) rest s) = false := hu
    rw [step_of_arrival h hw, hoff]
    rfl
  · rcases h with h | ⟨a, rest, h, hw⟩
    · rw [cycleDue_of_agenda_nil h, hu]
    · exact (cycleDue_iff_mustWait h).mpr hw
  · have hturn : nextTurn s = none := by simp [nextTurn, cycleDue_of_agenda_nil h, hu, h]
    rw [step, hturn]
  · have hrun : runArrival (.uop8 c o) (popped (.uop8 c o) rest s) = .refused (.reservedMicroOp c) := by
      rw [runArrival, arrivalWord, hc]
    rw [step_of_arrival h hw, enabled_popped rest (fun w hw => by cases hw), if_pos rfl, hrun]

/-- Settles O22: the meaning of every operation is an answer of a next state. -/
theorem operationsNeverTrap : Obligations.OperationsNeverTrap := by
  intro i s
  cases i <;> exact ⟨_, rfl⟩

end Sys2Proof.Proofs

/-!
What every operation does to the fields that say whether the block is armed, driven and faulted (spec/10_state R33, R36;
spec/41_arm_commit R159): said once, as a predicate that composition and case distinction keep.
-/

namespace Sys2Proof.Proofs

open Sys2Proof.Machine Sys2Proof.Claims

/-! The discipline of an operation. -/

/-- The state with another error mask. -/
def withError (e : U32) (s : State) : State := { s with run := { s.run with error := e } }

/-- Armed exactly with a law, and the chain from the arm to the enable: the part of the invariant that `run` and `tim`
decide beside the mask. -/
abbrev armingSound (s : State) : Prop := s.armedIffLaw ∧ s.enableChain

/-- A mask of kinds' bits only (spec/30_encoding R91). -/
abbrev InRange (m : U32) : Prop := m &&& ~~~errorBits = 0#32

theorem InRange.or {m k : U32} (hm : InRange m) (hk : InRange k) : InRange (m ||| k) := by
  rw [InRange, BitVec.and_or_distrib_right, hm, hk, BitVec.or_zero]

/-- An operation is disciplined when, from any state, it ORs a mask of kinds' bits into the error mask, neither that
mask nor anything else it does depending on the error mask it finds, and when it keeps the arming sound. -/
structure Disciplined (f : State → State) : Prop where
  addsMask : ∀ s, ∃ m : U32, InRange m ∧ ∀ e, f (withError e s) = withError (e ||| m) (f s)
  keepsArming : ∀ s, armingSound s → armingSound (f s)

namespace Disciplined

variable {f g : State → State}

/-- An operation that passes the error mask through. -/
theorem of_passes (hmask : ∀ s e, f (withError e s) = withError e (f s) := by exact fun _ _ => rfl)
    (harm : ∀ s, armingSound s → armingSound (f s) := by exact fun _ h => h) : Disciplined f where
  addsMask s := ⟨0#32, BitVec.zero_and, fun e => by rw [hmask, BitVec.or_zero]⟩
  keepsArming := harm

theorem id : Disciplined fun s => s := of_passes (fun _ _ => rfl) fun _ h => h

theorem comp (hg : Disciplined g) (hf : Disciplined f) : Disciplined fun s => g (f s) where
  addsMask s := by
    obtain ⟨m, hm, hfm⟩ := hf.addsMask s
    obtain ⟨k, hk, hgk⟩ := hg.addsMask (f s)
    exact ⟨m ||| k, hm.or hk, fun e => by rw [hfm, hgk, BitVec.or_assoc]⟩
  keepsArming s h := hg.keepsArming (f s) (hf.keepsArming s h)

/-- An operation that first reads something of the state, the error mask apart. -/
theorem reading {α : Type} (a : State → α) {f : α → State → State} (ha : ∀ e s, a (withError e s) = a s)
    (hf : ∀ x, Disciplined (f x)) : Disciplined fun s => f (a s) s where
  addsMask s := by
    obtain ⟨m, hm, hfm⟩ := (hf (a s)).addsMask s
    exact ⟨m, hm, fun e => by rw [ha, hfm]⟩
  keepsArming s h := (hf (a s)).keepsArming s h

/-- A case distinction on anything but the error mask. -/
theorem ite {c : State → Prop} [DecidablePred c] (hc : ∀ e s, c (withError e s) ↔ c s) (hf : Disciplined f)
    (hg : Disciplined g) : Disciplined fun s => if c s then f s else g s where
  addsMask s := by
    simp only [hc]
    by_cases h : c s
    · simpa only [if_pos h] using hf.addsMask s
    · simpa only [if_neg h] using hg.addsMask s
  keepsArming s h := by
    by_cases hcs : c s
    · simpa only [if_pos hcs] using hf.keepsArming s h
    · simpa only [if_neg hcs] using hg.keepsArming s h

end Disciplined

/-! The event stream, the environment, and the fault mechanism. -/

theorem disciplined_emit (e : Event) : Disciplined (emit e) := .of_passes
theorem disciplined_reject (op : U8) : Disciplined (reject op) := disciplined_emit _
theorem disciplined_answer (r : MicroResult) : Disciplined (answer r) := .of_passes
theorem disciplined_vbusRead : Disciplined vbusRead := .of_passes
theorem disciplined_brakeRead : Disciplined brakeRead := .of_passes
theorem disciplined_supRead : Disciplined supRead := .of_passes
theorem disciplined_fluxRead : Disciplined fluxRead := .of_passes
theorem disciplined_reqRead : Disciplined reqRead := .of_passes
theorem disciplined_limRead (i : ℕ) : Disciplined (limRead i) := .of_passes
theorem disciplined_timRead : Disciplined timRead := .of_passes
theorem disciplined_extMeasRead : Disciplined extMeasRead := .of_passes
theorem disciplined_extOutRead : Disciplined extOutRead := .of_passes

/-- Safely off, the arming is sound (R159). -/
theorem armingSound_of_safeOff {s : State} (h : s.safeOff) : armingSound s := by
  obtain ⟨hmoe, haoe, hlaw, harm⟩ := h
  simp [armingSound, State.armedIffLaw, State.enableChain, hmoe, haoe, hlaw, harm]

/-- The bits of the thirteen kinds are bits 12 to 0 (spec/30_encoding R91). -/
theorem inRange_kindMask (k : ErrorKind) : InRange (kindMask k) := by cases k <;> decide

theorem disciplined_disarm : Disciplined disarm :=
  .of_passes (fun _ _ => rfl) fun s _ => armingSound_of_safeOff (disarm_safeOff s)

theorem disciplined_raise (k : ErrorKind) : Disciplined (raise k) where
  addsMask _ := ⟨kindMask k, inRange_kindMask k, fun _ => rfl⟩
  keepsArming s _ := armingSound_of_safeOff (raise_safeOff k s)

theorem disciplined_raiseIf (c : Bool) (k : ErrorKind) : Disciplined (raiseIf c k) := by
  cases c
  · exact .id
  · exact disciplined_raise k

/-! The timer and the latch arbiter. -/

theorem disciplined_timEvent : Disciplined timEvent := .of_passes (fun _ _ => rfl) fun s h => by
  obtain ⟨hlaw, hmoe, haoe⟩ := h
  refine ⟨hlaw, fun h => ?_, haoe⟩
  rw [timEvent_tim, Bool.or_eq_true] at h
  exact h.elim hmoe fun h => h

theorem disciplined_timEvents (n : ℕ) : Disciplined (timEvents n) := by
  induction n with
  | zero => exact .id
  | succ n ih => exact ih.comp disciplined_timEvent

theorem disciplined_timSlot : Disciplined timSlot :=
  .reading timNow (f := fun n s => timEvents n (timRead s)) (fun _ _ => rfl) fun n =>
    (disciplined_timEvents n).comp disciplined_timRead

theorem disciplined_writeShA (c : U16) : Disciplined (writeShA c) := .of_passes
theorem disciplined_writeShB (c : U16) : Disciplined (writeShB c) := .of_passes
theorem disciplined_writeShC (c : U16) : Disciplined (writeShC c) := .of_passes

theorem disciplined_testInterlock : Disciplined testInterlock :=
  .reading brakeNow (f := fun b s => raiseIf (!b) .brakeResistorDisarmed (brakeRead s)) (fun _ _ => rfl) fun _ =>
    (disciplined_raiseIf _ _).comp disciplined_brakeRead

/-- The latch is set of an armed block only. -/
theorem disciplined_setAoe (t : Bool) : Disciplined (setAoe t) := by
  refine .of_passes (fun s e => ?_) fun s h => ?_
  · unfold setAoe
    rw [apply_ite (withError e)]
    rfl
  · obtain ⟨hlaw, hmoe, haoe⟩ := h
    simp only [armingSound, State.armedIffLaw, State.enableChain, setAoe_run, setAoe_tim, Bool.or_eq_true,
      Bool.and_eq_true]
    exact ⟨hlaw, fun h => .inl (hmoe h), fun h => h.elim haoe fun h => h.2⟩

theorem disciplined_testLate : Disciplined testLate :=
  .reading (fun s => s.tim.uif) (f := fun b => raiseIf b .controlDeadlineMissed) (fun _ _ => rfl) fun _ =>
    disciplined_raiseIf _ _

theorem disciplined_latchPwm (c : Triple U16) (t : Bool) : Disciplined (latchPwm c t) :=
  disciplined_testLate.comp <| disciplined_timSlot.comp <| (disciplined_setAoe t).comp <| disciplined_timSlot.comp <|
    (disciplined_writeShC c.c).comp <| disciplined_timSlot.comp <| (disciplined_writeShB c.b).comp <|
    disciplined_timSlot.comp <| (disciplined_writeShA c.a).comp <| disciplined_timSlot.comp <|
    disciplined_testInterlock.comp disciplined_timSlot

/-! The control laws. -/

theorem disciplined_lawReset (l : LawSel) : Disciplined (lawReset l) := by
  cases l with
  | none => exact .id
  | rmeas | lmeas => exact .of_passes
  | ext => exact disciplined_emit _

theorem disciplined_sampleR (ia : F32) : Disciplined (sampleR ia) := .of_passes
theorem disciplined_modulateR (v : F32) : Disciplined (modulateR v) := .of_passes

theorem disciplined_measR (v ia : F32) : Disciplined (measR v ia) :=
  .ite (c := fun s => overVmax (sampleR ia s) = true) (fun _ _ => Iff.rfl) (disciplined_sampleR ia) <|
    .ite (c := fun _ => v.isNaN = true) (fun _ _ => Iff.rfl) (disciplined_sampleR ia) <|
      (disciplined_modulateR v).comp (disciplined_sampleR ia)

theorem disciplined_measL (v ia : F32) (ts : U32) : Disciplined (measL v ia ts) :=
  .ite (c := fun _ => unusableL v ia = true) (fun _ _ => Iff.rfl) .id .of_passes

theorem disciplined_outL : Disciplined outL :=
  .ite (c := fun s => (vbusNow s).isNaN = true) (fun _ _ => Iff.rfl) disciplined_vbusRead .of_passes

theorem disciplined_measX (v : F32) (i : Triple F32) (ts : U32) : Disciplined (measX v i ts) :=
  disciplined_extMeasRead.comp (disciplined_emit _)

theorem disciplined_outX (ts : U32) : Disciplined (outX ts) := disciplined_extOutRead.comp (disciplined_emit _)

theorem disciplined_lawMeas (l : LawSel) (v : F32) (i : Triple F32) (ts : U32) : Disciplined (lawMeas l v i ts) := by
  cases l with
  | none => exact .id
  | rmeas => exact disciplined_measR v i.a
  | lmeas => exact disciplined_measL v i.a ts
  | ext => exact disciplined_measX v i ts

theorem disciplined_lawOut (l : LawSel) (ts : U32) : Disciplined (lawOut l ts) := by
  cases l with
  | none | rmeas => exact .id
  | lmeas => exact disciplined_outL
  | ext => exact disciplined_outX ts

/-! Arm. -/

/-- An arm attaches a law and arms. -/
theorem disciplined_attach {l : LawSel} (hl : l ≠ .none) : Disciplined (attach l) := by
  refine .of_passes (fun s e => by cases l <;> rfl) fun s h => ?_
  obtain ⟨_, hmoe, _⟩ := h
  simp only [armingSound, State.armedIffLaw, State.enableChain, attach_run, attach_tim]
  exact ⟨⟨fun _ => hl, fun _ => trivial⟩, hmoe, fun _ => trivial⟩

theorem disciplined_armLaw {l : LawSel} (hl : l ≠ .none) : Disciplined (armLaw l) :=
  .ite (c := fun s => brakeNow s = true) (fun _ _ => Iff.rfl) ((disciplined_attach hl).comp disciplined_brakeRead)
    disciplined_brakeRead

/-- A selector never names the law `NONE` (spec/30_encoding R96). -/
theorem lawOfSel_ne_none {sel : U8} {l : LawSel} (h : lawOfSel sel = some l) : l ≠ .none := by
  unfold lawOfSel at h
  split at h <;> cases h <;> decide

theorem disciplined_armCmd (sel : U8) : Disciplined (armCmd sel) := by
  unfold armCmd
  split
  · next l h => exact disciplined_armLaw (lawOfSel_ne_none h)
  · exact disciplined_reject _

theorem disciplined_disarmErrCmd (sel : U8) : Disciplined (disarmErrCmd sel) := by
  unfold disarmErrCmd
  split
  · exact disciplined_raise _
  · exact disciplined_reject _

/-! Acquisition and limits. -/

theorem disciplined_sanFault (adc : Triple U32) : Disciplined (sanFault adc) :=
  .reading State.par (f := fun p s =>
      raiseIf (saturates p (sensedC p) adc.c) .currentSenseSaturation
        (raiseIf (saturates p (sensedB p) adc.b) .currentSenseSaturation
          (raiseIf (saturates p (sensedA p) adc.a) .currentSenseSaturation s)))
    (fun _ _ => rfl) fun _ =>
      (disciplined_raiseIf _ _).comp ((disciplined_raiseIf _ _).comp (disciplined_raiseIf _ _))

theorem disciplined_filterUpdate (i : Triple F32) : Disciplined (filterUpdate i) :=
  .ite (c := fun _ => anyNaN i = true) (fun _ _ => Iff.rfl) .of_passes .of_passes

theorem disciplined_leakCheck : Disciplined leakCheck :=
  .reading leakTrips (f := fun b => raiseIf b .iLeakOutOfRange) (fun _ _ => rfl) fun _ => disciplined_raiseIf _ _

theorem disciplined_magCheck : Disciplined magCheck :=
  .reading magTrips (f := fun b => raiseIf b .currentLimitViolation) (fun _ _ => rfl) fun _ => disciplined_raiseIf _ _

theorem disciplined_ibusCheck : Disciplined ibusCheck :=
  .reading ibusTrips (f := fun b => raiseIf b .iBusOutOfRange) (fun _ _ => rfl) fun _ => disciplined_raiseIf _ _

theorem foldLims_withError (n i : ℕ) (lim : F32) (e : U32) (s : State) :
    foldLims n i lim (withError e s) = foldLims n i lim s := by
  induction n generalizing i lim s with
  | zero => rfl
  | succ n ih => exact ih (i + 1) (F32.min lim (limNow i s)) (limRead i s)

theorem disciplined_baseLimRead : Disciplined baseLimRead :=
  .ite (c := fun s => motorType s = .gimbal) (fun _ _ => Iff.rfl) disciplined_vbusRead .id

theorem effLim_withError (e : U32) (s : State) : effLim (withError e s) = effLim s := by
  have hread : baseLimRead (withError e s) = withError e (baseLimRead s) := by
    unfold baseLimRead
    rw [apply_ite (withError e)]
    rfl
  rw [effLim, hread]
  exact foldLims_withError _ _ _ _ _

theorem disciplined_readLims (n i : ℕ) : Disciplined (readLims n i) := by
  induction n generalizing i with
  | zero => exact .id
  | succ n ih => exact (ih (i + 1)).comp (disciplined_limRead i)

theorem disciplined_cacheLim (lim : F32) : Disciplined (cacheLim lim) := .of_passes

theorem disciplined_evalLim : Disciplined evalLim :=
  .reading effLim (f := fun lim s => cacheLim lim (readLims s.par.nLim 0 (baseLimRead s))) effLim_withError fun lim =>
    (disciplined_cacheLim lim).comp <|
      .reading (fun s => s.par.nLim) (f := fun n s => readLims n 0 (baseLimRead s)) (fun _ _ => rfl) fun n =>
        (disciplined_readLims n 0).comp disciplined_baseLimRead

theorem disciplined_torqueRead : Disciplined torqueRead :=
  .ite (c := fun s => motorType s = .acim) (fun _ _ => Iff.rfl) disciplined_fluxRead .id

/-! The update cycle. -/

theorem disciplined_beginCycle : Disciplined beginCycle := .of_passes
theorem disciplined_setDirection (d : Bool) : Disciplined (setDirection d) := .of_passes
theorem disciplined_latchCurrents (i : Triple F32) : Disciplined (latchCurrents i) := .of_passes
theorem disciplined_latchBus (ibus : F32) : Disciplined (latchBus ibus) := .of_passes

theorem disciplined_superviseCheck : Disciplined superviseCheck :=
  .ite (c := fun s => supNow s = true) (fun _ _ => Iff.rfl) (disciplined_disarm.comp disciplined_supRead)
    disciplined_supRead

theorem disciplined_raiseMeas (r : MeasResult) : Disciplined (raiseMeas r) := by
  cases r with
  | success => exact .id
  | err k => exact disciplined_raise k

/-- The answer of `LAW_MEAS` in s7 of `SENSE_BODY`. -/
def fedResult (s : State) : MeasResult := lawMeasResult s.run.law (vbusNow s) s.lat.iMeas (vbusRead s)

theorem fedResult_withError (e : U32) (s : State) : fedResult (withError e s) = fedResult s := by
  have h : ∀ l v i t, lawMeasResult l v i (withError e t) = lawMeasResult l v i t := fun l v i t => by cases l <;> rfl
  exact h _ _ _ (vbusRead s)

/-- The state after `LAW_MEAS` in s7 of `SENSE_BODY`. -/
def fed (s : State) : State := lawMeas s.run.law (vbusNow s) s.lat.iMeas s.run.ts (vbusRead s)

theorem disciplined_fed : Disciplined fed :=
  .reading (fun s => (s.run.law, vbusNow s, s.lat.iMeas, s.run.ts))
    (f := fun x s => lawMeas x.1 x.2.1 x.2.2.1 x.2.2.2 (vbusRead s)) (fun _ _ => rfl) fun _ =>
      (disciplined_lawMeas _ _ _ _).comp disciplined_vbusRead

theorem feedLaw_eq (s : State) : feedLaw s = if s.run.law = .none then s else raiseMeas (fedResult s) (fed s) := rfl

theorem disciplined_feedLaw : Disciplined feedLaw := by
  rw [funext feedLaw_eq]
  exact .ite (fun _ _ => Iff.rfl) .id <|
    .reading fedResult (f := fun r s => raiseMeas r (fed s)) fedResult_withError fun r =>
      (disciplined_raiseMeas r).comp disciplined_fed

theorem disciplined_senseBody (i : Triple F32) : Disciplined (senseBody i) :=
  disciplined_feedLaw.comp <| disciplined_magCheck.comp <| disciplined_evalLim.comp <|
    disciplined_superviseCheck.comp <| disciplined_leakCheck.comp (disciplined_latchCurrents i)

theorem disciplined_commitResult (r : Option OutResult) : Disciplined (commitResult r) := by
  cases r with
  | none => exact .id
  | some r =>
    cases r with
    | duty d =>
      exact .ite (c := fun _ => validDuty d = true) (fun _ _ => Iff.rfl)
        (.reading State.par (f := fun p => latchPwm (dutyCodes p d) false) (fun _ _ => rfl)
          fun _ => disciplined_latchPwm _ _)
        (disciplined_raise _)
    | err k => exact .ite (c := fun s => tolerated k s = true) (fun _ _ => Iff.rfl) .id (disciplined_raise k)

theorem disciplined_commitTail (r : Option OutResult) : Disciplined (commitTail r) :=
  .reading (resultBus r) (f := fun ibus t => ibusCheck (latchBus ibus (commitResult r t))) (fun _ _ => rfl) fun ibus =>
    disciplined_ibusCheck.comp ((disciplined_latchBus ibus).comp (disciplined_commitResult r))

theorem lawOutResult_withError (l : LawSel) (e : U32) (s : State) :
    lawOutResult l (withError e s) = lawOutResult l s := by cases l <;> rfl

/-- c1 to c7 of `COMMIT_BODY`, after the filter update. -/
theorem disciplined_commit :
    Disciplined fun t => commitTail (lawOutResult t.run.law t) (lawOut t.run.law (lookAheadTs t) t) :=
  .reading (fun t => lawOutResult t.run.law t) (f := fun r t => commitTail r (lawOut t.run.law (lookAheadTs t) t))
    (fun e t => lawOutResult_withError t.run.law e t) fun r =>
      (disciplined_commitTail r).comp <|
        .reading (fun t => (t.run.law, lookAheadTs t)) (f := fun x => lawOut x.1 x.2) (fun _ _ => rfl)
          fun _ => disciplined_lawOut _ _

theorem disciplined_commitBody (i : Triple F32) : Disciplined (commitBody i) :=
  disciplined_commit.comp (disciplined_filterUpdate i)

theorem disciplined_fallback : Disciplined fallback :=
  .reading State.par (f := fun p => latchPwm { a := p.half, b := p.half, c := p.half } true) (fun _ _ => rfl) fun _ =>
    disciplined_latchPwm _ _

theorem disciplined_runRole (role : Role) (adc : Triple U32) : Disciplined (runRole role adc) := by
  cases role with
  | sense =>
    exact .reading State.par (f := fun p s => senseBody (phaseCurrents p adc) (sanFault adc s))
      (fun _ _ => rfl) fun _ => (disciplined_senseBody _).comp (disciplined_sanFault adc)
  | commit =>
    exact .reading State.par (f := fun p s => commitBody (phaseCurrents p adc) (sanFault adc (fallback s)))
      (fun _ _ => rfl) fun _ => (disciplined_commitBody _).comp ((disciplined_sanFault adc).comp disciplined_fallback)

theorem disciplined_directCycle (adc : Triple U32) : Disciplined (directCycle adc) :=
  .ite (c := fun s => s.tim.dir = s.run.countingDown) (fun _ _ => Iff.rfl) (disciplined_raise _) <|
    .reading (fun s => s.tim.dir) (f := fun d s => runRole (roleOf d) adc (setDirection d s)) (fun _ _ => rfl) fun d =>
      (disciplined_runRole _ adc).comp (disciplined_setDirection d)

theorem disciplined_updCycle (adc : Triple U32) : Disciplined (updCycle adc) :=
  (disciplined_directCycle adc).comp (disciplined_timSlot.comp disciplined_beginCycle)

/-! Calibration and register access. -/

theorem disciplined_gains : Disciplined gains := .of_passes
theorem disciplined_enterWait (w : CalState) : Disciplined (enterWait w) := .of_passes
theorem disciplined_setSeq (b : Bool) : Disciplined (setSeq b) := .of_passes
theorem disciplined_setOk (b : Bool) : Disciplined (setOk b) := .of_passes
theorem disciplined_setCal (w : CalState) : Disciplined (setCal w) := .of_passes
theorem disciplined_createR : Disciplined createR := .of_passes
theorem disciplined_createL : Disciplined createL := .of_passes

theorem disciplined_startR : Disciplined startR :=
  (disciplined_enterWait _).comp ((disciplined_armLaw (by decide)).comp disciplined_createR)

theorem disciplined_startL : Disciplined startL :=
  (disciplined_enterWait _).comp ((disciplined_armLaw (by decide)).comp disciplined_createL)

theorem disciplined_cfgWrite (n : ℕ) (v : U32) : Disciplined (cfgWrite n v) := by
  by_cases h : n < 16
  · have hwrite : cfgWrite n v = fun s => { s with cfg := s.cfg.set n v } := funext fun s => dif_pos h
    rw [hwrite]
    exact .of_passes
  · have hkeep : cfgWrite n v = fun s => s := funext fun s => dif_neg h
    rw [hkeep]
    exact .id

theorem disciplined_concludeMeas (reg : ℕ) (k : ErrorKind) (op : U8) (reason : BitVec 2) (v : F32) (ok : Bool) :
    Disciplined (concludeMeas reg k op reason v ok) :=
  (disciplined_emit _).comp <| (disciplined_setOk ok).comp <| (disciplined_raiseIf _ k).comp (disciplined_cfgWrite _ _)

/-- What `FINISH_R` does once the measurement is concluded: go on with the inductance, end the sequence, or end. -/
def leaveR (seq ok : Bool) (t : State) : State :=
  if seq && ok then startL t
  else if seq then emit (.cmdResult opCalRun 0#32) (setSeq false (setCal .idle t))
  else setCal .idle t

/-- What `FINISH_L` does once the measurement is concluded: end the sequence, or end. -/
def leaveL (seq ok : Bool) (t : State) : State :=
  if seq then emit (.cmdResult opCalRun (bitWord ok)) (if ok then gains (setSeq false t) else setSeq false t) else t

/-- The success of a measurement of value `v`. -/
def measOk (v : F32) (s : State) : Bool := s.run.isArmed && v.isFinite

theorem finishR_eq (reason : BitVec 2) (s : State) :
    finishR reason s = leaveR s.cal.seq (measOk (resistanceValue s) s)
      (concludeMeas 0x05 .phaseResistanceOutOfRange opCalR reason (resistanceValue s) (measOk (resistanceValue s) s)
        (disarm s)) := rfl

theorem finishL_eq (reason : BitVec 2) (s : State) :
    finishL reason s = leaveL s.cal.seq (measOk (inductanceValue s) s)
      (setCal .idle (concludeMeas 0x06 .phaseInductanceOutOfRange opCalL reason (inductanceValue s)
        (measOk (inductanceValue s) s) (disarm s))) := rfl

theorem disciplined_leaveR (seq ok : Bool) : Disciplined (leaveR seq ok) :=
  .ite (c := fun _ => (seq && ok) = true) (fun _ _ => Iff.rfl) disciplined_startL <|
    .ite (c := fun _ => seq = true) (fun _ _ => Iff.rfl)
      ((disciplined_emit _).comp ((disciplined_setSeq _).comp (disciplined_setCal _)))
      (disciplined_setCal _)

theorem disciplined_leaveL (seq ok : Bool) : Disciplined (leaveL seq ok) :=
  .ite (c := fun _ => seq = true) (fun _ _ => Iff.rfl)
    ((disciplined_emit _).comp <| .ite (c := fun _ => ok = true) (fun _ _ => Iff.rfl)
      (disciplined_gains.comp (disciplined_setSeq _)) (disciplined_setSeq _))
    .id

theorem disciplined_finishR (reason : BitVec 2) : Disciplined (finishR reason) :=
  .reading (fun s => (s.cal.seq, resistanceValue s, measOk (resistanceValue s) s))
    (f := fun x s => leaveR x.1 x.2.2
      (concludeMeas 0x05 .phaseResistanceOutOfRange opCalR reason x.2.1 x.2.2 (disarm s)))
    (fun _ _ => rfl) fun _ =>
      (disciplined_leaveR _ _).comp ((disciplined_concludeMeas _ _ _ _ _ _).comp disciplined_disarm)

theorem disciplined_finishL (reason : BitVec 2) : Disciplined (finishL reason) :=
  .reading (fun s => (s.cal.seq, inductanceValue s, measOk (inductanceValue s) s))
    (f := fun x s => leaveL x.1 x.2.2
      (setCal .idle (concludeMeas 0x06 .phaseInductanceOutOfRange opCalL reason x.2.1 x.2.2 (disarm s))))
    (fun _ _ => rfl) fun _ =>
      (disciplined_leaveL _ _).comp <| (disciplined_setCal _).comp <|
        (disciplined_concludeMeas _ _ _ _ _ _).comp disciplined_disarm

/-- `finish` as a choice between the two loops. -/
theorem finish_eq (reason : BitVec 2) (s : State) :
    finish reason s =
      if s.cal.state = .rWait then finishR reason s else if s.cal.state = .lWait then finishL reason s else s := by
  unfold finish
  split <;> simp [*]

theorem disciplined_finish (reason : BitVec 2) : Disciplined (finish reason) := by
  rw [funext (finish_eq reason)]
  exact .ite (fun _ _ => Iff.rfl) (disciplined_finishR reason) <|
    .ite (fun _ _ => Iff.rfl) (disciplined_finishL reason) .id

/-- The sleep of a poll: the count goes up by one. -/
def countPoll (s : State) : State := { s with cal := { s.cal with cnt := s.cal.cnt + 1#32 } }

theorem disciplined_pollLoop : Disciplined pollLoop :=
  .ite (c := fun s => pollCeiling s ≤ s.cal.cnt) (fun _ _ => Iff.rfl) (disciplined_finish _) <|
    .ite (c := fun s => reqNow s = true) (fun _ _ => Iff.rfl) ((disciplined_finish _).comp disciplined_reqRead) <|
      .ite (c := fun s => (!s.run.isArmed) = true) (fun _ _ => Iff.rfl)
        ((disciplined_finish _).comp disciplined_reqRead) (.of_passes)

theorem disciplined_calPoll : Disciplined calPoll :=
  .ite (c := fun s => s.cal.state = .idle) (fun _ _ => Iff.rfl) .id disciplined_pollLoop

theorem disciplined_whenIdle (op : U8) {f : State → State} (hf : Disciplined f) : Disciplined (whenIdle op f) :=
  .ite (c := fun s => s.cal.state = .idle) (fun _ _ => Iff.rfl) hf (disciplined_reject op)

theorem calRunIdle_eq (s : State) :
    calRunIdle s =
      if motorType s = .gimbal then emit (.cmdResult opCalRun 1#32) (setOk true (gains s))
      else if motorType s = .reserved then emit (.cmdResult opCalRun 0#32) (setOk false s)
      else startR (setSeq true s) := by
  unfold calRunIdle
  split <;> simp [*]

theorem disciplined_calRunIdle : Disciplined calRunIdle := by
  rw [funext calRunIdle_eq]
  exact .ite (fun _ _ => Iff.rfl) ((disciplined_emit _).comp ((disciplined_setOk _).comp disciplined_gains)) <|
    .ite (fun _ _ => Iff.rfl) ((disciplined_emit _).comp (disciplined_setOk _))
      (disciplined_startR.comp (disciplined_setSeq _))

theorem disciplined_cfgWr (sel : U8) (data : U32) : Disciplined (cfgWr sel data) :=
  .ite (c := fun s => cfgRefused sel s = true) (fun _ _ => Iff.rfl) (disciplined_reject _) (disciplined_cfgWrite _ _)

/-- `ERROR` is the only register that shows the error mask (spec/10_state R50). -/
theorem regRead_withError {n : U8} (hn : n ≠ 0x10#8) (e : U32) (s : State) :
    regRead n (withError e s) = regRead n s := by
  unfold regRead
  split
  · rfl
  · split
    · exact absurd rfl hn
    all_goals rfl

/-- The answer to a read of a register's value. -/
def answerRead : Option U32 → State → State
  | some v, s => emit (.cmdResult opRegRd v) s
  | none, s => reject opRegRd s

theorem regRd_eq (sel : U8) (s : State) : regRd sel s = answerRead (regRead sel s) s := by
  unfold regRd
  split <;> simp [*, answerRead]

theorem disciplined_regRd {sel : U8} (hsel : sel ≠ 0x10#8) : Disciplined (regRd sel) := by
  rw [funext (regRd_eq sel)]
  refine .reading (regRead sel) (f := answerRead) (regRead_withError hsel) fun r => ?_
  cases r with
  | none => exact disciplined_reject _
  | some v => exact disciplined_emit _

/-! Every operation. -/

/-- The state an operation answers (spec/00_scope R26: it always answers one). -/
def nextState (i : Instr) (s : State) : State :=
  match exec i s with
  | .next t => t
  | .fault _ | .refused _ => s

theorem exec_eq_nextState (i : Instr) (s : State) : exec i s = .next (nextState i s) := by
  cases i <;> rfl

theorem eq_nextState_of_exec {i : Instr} {s t : State} (h : exec i s = .next t) : t = nextState i s := by
  rw [exec_eq_nextState] at h
  exact (Host.Outcome.next.inj h).symm

/-- A command that emits what it reads of the state, the error mask apart. -/
theorem disciplined_emitting (v : State → Event) (hv : ∀ e s, v (withError e s) = v s) {f : State → State}
    (hf : Disciplined f) : Disciplined fun s => emit (v s) (f s) :=
  .reading v (f := fun x s => emit x (f s)) hv fun x => (disciplined_emit x).comp hf

/-- A micro-operation stepped alone that answers what it reads of the state, the error mask apart. -/
theorem disciplined_answering (r : State → MicroResult) (hr : ∀ e s, r (withError e s) = r s) {f : State → State}
    (hf : Disciplined f) : Disciplined fun s => answer (r s) (f s) :=
  .reading r (f := fun x s => answer x (f s)) hr fun x => (disciplined_answer x).comp hf

/-- A micro-operation stepped alone takes its operands from the latches (log 7). -/
theorem disciplined_ofLatches {f : Operands → State → State} (hf : ∀ o, Disciplined (f o)) :
    Disciplined fun s => f s.opnd s :=
  .reading State.opnd (fun _ _ => rfl) hf

theorem nextState_clrErr (s : State) : nextState .clrErr s = clearErr s := rfl

theorem nextState_readError (s : State) :
    nextState (.regRd 0x10#8) s = emit (.cmdResult opRegRd s.run.error) s := rfl

/-- Every operation is disciplined but the two that name the error mask: the clearing and the reading of it (R33). -/
theorem disciplined_nextState {i : Instr} (hclr : i ≠ .clrErr) (hrd : i ≠ .regRd 0x10#8) :
    Disciplined (nextState i) := by
  cases i with
  | clrErr => exact absurd rfl hclr
  | regRd sel => exact disciplined_regRd fun h => hrd (congrArg _ h)
  | nop => exact .id
  | arm sel => exact disciplined_armCmd sel
  | disarm =>
    exact disciplined_emitting (fun s => .cmdResult opDisarm (bitWord s.run.isArmed)) (fun _ _ => rfl)
      disciplined_disarm
  | disarmErr sel => exact disciplined_disarmErrCmd sel
  | evalLim =>
    exact disciplined_emitting (fun s => .cmdResult opEvalLim (effLim s).toBits)
      (fun e s => by rw [effLim_withError]) disciplined_evalLim
  | maxTorque =>
    exact disciplined_emitting (fun s => .cmdResult opMaxTorque (maxTorque s).toBits) (fun _ _ => rfl)
      disciplined_torqueRead
  | updGains => exact disciplined_whenIdle _ disciplined_gains
  | calRun => exact disciplined_whenIdle _ disciplined_calRunIdle
  | calR => exact disciplined_whenIdle _ (disciplined_startR.comp (disciplined_setSeq false))
  | calL => exact disciplined_whenIdle _ (disciplined_startL.comp (disciplined_setSeq false))
  | calPoll => exact disciplined_calPoll
  | cfgWr sel data => exact disciplined_cfgWr sel data
  | getR =>
    exact disciplined_emitting (fun s => .cmdResult opGetR (resistanceValue s).toBits) (fun _ _ => rfl) .id
  | getL =>
    exact disciplined_emitting (fun s => .cmdResult opGetL (inductanceValue s).toBits) (fun _ _ => rfl) .id
  | upd a b c => exact disciplined_updCycle ⟨a, b, c⟩
  | timEvent => exact disciplined_timEvent
  | applyPwm => exact disciplined_ofLatches fun o => disciplined_latchPwm o.codes o.tentative
  | sanitize =>
    exact disciplined_answering (fun s => .codes (sanCodes s.par s.opnd.adc)) (fun _ _ => rfl)
      (disciplined_ofLatches fun o => disciplined_sanFault o.adc)
  | adc2amp =>
    exact disciplined_answering (fun s => .amps (adcToAmp s.par s.opnd.code)) (fun _ _ => rfl) .id
  | infer =>
    exact disciplined_answering (fun s => .currents (inferPhases s.par s.opnd.amps)) (fun _ _ => rfl) .id
  | dcfUpdate => exact disciplined_ofLatches fun o => disciplined_filterUpdate o.amps
  | dcfValid => exact disciplined_answering (fun s => .bit (dcfValid s)) (fun _ _ => rfl) .id
  | correct =>
    exact disciplined_answering (fun s => .currents (Machine.corrected s s.opnd.amps)) (fun _ _ => rfl) .id
  | leakChk => exact disciplined_leakCheck
  | magChk => exact disciplined_magCheck
  | ibusChk => exact disciplined_ibusCheck
  | duty2ccr =>
    exact disciplined_answering (fun s => .compare (dutyToCcr s.par s.opnd.duty)) (fun _ _ => rfl) .id
  | lawResetR => exact disciplined_lawReset .rmeas
  | lawMeasR =>
    exact disciplined_answering (fun s => .meas (measRResult s.opnd.vbus s.opnd.amps.a s)) (fun _ _ => rfl)
      (disciplined_ofLatches fun o => disciplined_measR o.vbus o.amps.a)
  | lawOutR => exact disciplined_answering (fun s => .out (outR s)) (fun _ _ => rfl) .id
  | lawResetL => exact disciplined_lawReset .lmeas
  | lawMeasL =>
    exact disciplined_answering (fun s => .meas (measLResult s.opnd.vbus s.opnd.amps.a)) (fun _ _ => rfl)
      (disciplined_ofLatches fun o => disciplined_measL o.vbus o.amps.a o.ts)
  | lawOutL => exact disciplined_answering (fun s => .out (outLResult s)) (fun _ _ => rfl) disciplined_outL
  | lawResetX => exact disciplined_lawReset .ext
  | lawMeasX =>
    exact disciplined_answering (fun s => .meas (extMeasNow s)) (fun _ _ => rfl)
      (disciplined_ofLatches fun o => disciplined_measX o.vbus o.amps o.ts)
  | lawOutX =>
    exact disciplined_answering (fun s => .out (extOutNow s)) (fun _ _ => rfl)
      (disciplined_ofLatches fun o => disciplined_outX o.ts)

/-- `disciplined_nextState` as the case split its uses make. -/
theorem clears_or_reads_or_disciplined (i : Instr) :
    i = .clrErr ∨ i = .regRd 0x10#8 ∨ Disciplined (nextState i) := by
  by_cases hclr : i = .clrErr
  · exact .inl hclr
  by_cases hrd : i = .regRd 0x10#8
  · exact .inr (.inl hrd)
  · exact .inr (.inr (disciplined_nextState hclr hrd))

/-- A disciplined operation ORs bits of kinds into the mask. -/
theorem Disciplined.exists_error_eq {f : State → State} (hf : Disciplined f) (s : State) :
    ∃ m : U32, InRange m ∧ (f s).run.error = s.run.error ||| m := by
  obtain ⟨m, hm, hfm⟩ := hf.addsMask s
  exact ⟨m, hm, congrArg (·.run.error) (hfm s.run.error)⟩

end Sys2Proof.Proofs

/-!
The state (spec/10_state): bit patterns of numbers, the reset values, the error mask, and the invariant every step
keeps.
-/

namespace Sys2Proof.Proofs

open Sys2Proof.Machine Sys2Proof.Claims

/-! Bit patterns (R50). -/

/-- A word put together from its three fields is read by its fields. -/
theorem ofBits_fields (n : Bool) {e f : ℕ} (he : e < 256) (hf : f < 2 ^ 23) :
    F32.ofBits (BitVec.ofNat 32 (n.toNat * 2 ^ 31 + e * 2 ^ 23 + f)) =
      if e < 255 then .finite n (Fin.ofNat 255 e) (BitVec.ofNat 23 f)
      else if f = 0 then .inf n else .nan n (Fin.ofNat 8388607 (f - 1)) := by
  have hn : n.toNat ≤ 1 := Bool.toNat_le n
  have hword : (BitVec.ofNat 32 (n.toNat * 2 ^ 31 + e * 2 ^ 23 + f)).toNat = n.toNat * 2 ^ 31 + e * 2 ^ 23 + f := by
    rw [BitVec.toNat_ofNat]
    omega
  have hsign : decide (2 ^ 31 ≤ n.toNat * 2 ^ 31 + e * 2 ^ 23 + f) = n := by
    cases n
    · exact decide_eq_false (by rw [Bool.toNat_false]; omega)
    · exact decide_eq_true (by rw [Bool.toNat_true]; omega)
  have hexpo : (n.toNat * 2 ^ 31 + e * 2 ^ 23 + f) / 2 ^ 23 % 256 = e := by omega
  have hfrac : (n.toNat * 2 ^ 31 + e * 2 ^ 23 + f) % 2 ^ 23 = f := by omega
  simp only [F32.ofBits, hword, hsign, hexpo, hfrac]

/-- Every word is put together from its three fields. -/
theorem exists_fields (w : U32) :
    ∃ (n : Bool) (e f : ℕ), e < 256 ∧ f < 2 ^ 23 ∧ w = BitVec.ofNat 32 (n.toNat * 2 ^ 31 + e * 2 ^ 23 + f) := by
  have hw := w.isLt
  refine ⟨decide (2 ^ 31 ≤ w.toNat), w.toNat / 2 ^ 23 % 256, w.toNat % 2 ^ 23, by omega, by omega, ?_⟩
  apply BitVec.eq_of_toNat_eq
  by_cases h : 2 ^ 31 ≤ w.toNat <;> simp only [h, decide_true, decide_false, Bool.toNat_true, Bool.toNat_false,
    BitVec.toNat_ofNat] <;> omega

theorem ofBits_toBits (x : F32) : F32.ofBits x.toBits = x := by
  cases x with
  | finite n e f =>
    rw [F32.toBits, ofBits_fields n (by omega) f.isLt, if_pos e.isLt]
    simp [Fin.ofNat, Nat.mod_eq_of_lt e.isLt]
  | inf n =>
    have h := ofBits_fields n (e := 255) (f := 0) (by norm_num) (by norm_num)
    rwa [add_zero] at h
  | nan n p =>
    rw [F32.toBits, ofBits_fields n (by norm_num) (by omega)]
    simp [Fin.ofNat, Nat.mod_eq_of_lt p.isLt]

theorem toBits_ofBits (w : U32) : (F32.ofBits w).toBits = w := by
  obtain ⟨n, e, f, he, hf, rfl⟩ := exists_fields w
  rw [ofBits_fields n he hf]
  split
  · next h => simp only [F32.toBits, Fin.ofNat, BitVec.toNat_ofNat, Nat.mod_eq_of_lt h, Nat.mod_eq_of_lt hf]
  · next h =>
    obtain rfl : e = 255 := by omega
    split
    · next h0 => rw [h0, add_zero, F32.toBits]
    · next h0 =>
      have hp : (f - 1) % 8388607 + 1 = f := by omega
      simp only [F32.toBits, Fin.ofNat, hp]

/-- Settles O8: pattern and datum have the same three fields, sign, exponent and fraction. -/
theorem bitPatternsBijective : Obligations.BitPatternsBijective := ⟨ofBits_toBits, toBits_ofBits⟩

/-! Reset (R59). -/

/-- Settles O11: the table's values are the fields of `State.resetWith`, COUNTING_DOWN_RESET put in. -/
theorem resetState : Obligations.ResetState := by
  intro p l hdir
  refine ⟨?_, rfl, rfl, rfl, rfl, rfl, rfl, rfl, rfl, rfl⟩
  simp [State.resetWith, hdir]

/-- A launch state is sound whatever stands in the fields that launch or the outside world fills. -/
theorem sound_resetWith (p : Params) (l : Launch) (c : Vector U32 16) (ag : List Arrival) (e : Env) (o : Operands) :
    ({ State.resetWith p l with cfg := c, agenda := ag, env := e, opnd := o } : State).sound := by
  simp [State.sound, State.armedIffLaw, State.maskInRange, State.enableChain, State.calSound, State.resetWith]

/-- Settles O12: a launch state has neither a law nor an enable, an empty mask and an idle sequencer. -/
theorem soundAtReset : Obligations.SoundAtReset :=
  ⟨fun p l c => sound_resetWith p l c [] Env.free Operands.zero,
    sound_resetWith Config.params Config.launch Config.launch.cfg [] Env.free Operands.zero, rfl, rfl⟩

/-! The error mask (R33). -/

/-- Settles O15: a disciplined operation only ORs bits in, and the reading of `ERROR` leaves the mask alone. -/
theorem errorBitsSticky : Obligations.ErrorBitsSticky := by
  intro i s t hclr h b hb
  rw [eq_nextState_of_exec h]
  rcases clears_or_reads_or_disciplined i with rfl | rfl | hi
  · exact absurd rfl hclr
  · rw [nextState_readError, emit_run, hb]
  · obtain ⟨m, -, herr⟩ := hi.exists_error_eq s
    rw [herr, BitVec.getLsbD_or, hb, Bool.true_or]

/-- Settles O20: a disciplined operation does not look at the mask, and `CLR_ERR` overwrites it. -/
theorem errorMaskDecidesNothing : Obligations.ErrorMaskDecidesNothing := by
  intro i s e hrd
  change sameButError (exec i s) (exec i (withError e s))
  rw [exec_eq_nextState, exec_eq_nextState]
  rcases clears_or_reads_or_disciplined i with rfl | rfl | hi
  · rfl
  · exact absurd rfl hrd
  · obtain ⟨m, -, hfm⟩ := hi.addsMask s
    rw [hfm]
    rfl

/-! The calibration sequencer (spec/45_calibration R283, R287). -/

theorem calSound_of_eq {s t : State} (hcal : t.cal = s.cal) (hpar : t.par = s.par) (h : s.calSound) : t.calSound := by
  simpa only [State.calSound, hcal, hpar] using h

/-- An idle sequencer runs no sequence. -/
theorem seq_of_idle {s : State} (h : s.calSound) (hidle : s.cal.state = .idle) : s.cal.seq = false := by
  obtain ⟨hseq, -, -⟩ := h
  by_contra hc
  exact hseq (by simpa using hc) hidle

theorem calSound_of_idle {s : State} (hidle : s.cal.state = .idle) (hseq : s.cal.seq = false) : s.calSound := by
  simp [State.calSound, hidle, hseq]

/-- A wait loop is entered with a count of zero. -/
theorem calSound_startR (s : State) : (startR s).calSound := by simp [State.calSound, startR, BitVec.le_def]
theorem calSound_startL (s : State) : (startL s).calSound := by simp [State.calSound, startL, BitVec.le_def]

theorem concludeMeas_cal (reg : ℕ) (k : ErrorKind) (op : U8) (reason : BitVec 2) (v : F32) (ok : Bool) (s : State) :
    (concludeMeas reg k op reason v ok s).cal = { s.cal with ok := ok } := by simp [concludeMeas]

/-- Whether the resistance measurement goes on or ends, a sequence that does not wait has ended. -/
theorem calSound_leaveR {seq ok : Bool} {t : State} (h : t.cal.seq = seq) : (leaveR seq ok t).calSound := by
  unfold leaveR
  split
  · exact calSound_startL t
  · split
    · exact calSound_of_idle rfl rfl
    · next hseq => exact calSound_of_idle rfl (h.trans (by simpa using hseq))

theorem calSound_leaveL {seq ok : Bool} {t : State} (hidle : t.cal.state = .idle) (h : t.cal.seq = seq) :
    (leaveL seq ok t).calSound := by
  unfold leaveL
  split
  · cases ok <;> exact calSound_of_idle hidle rfl
  · next hseq => exact calSound_of_idle hidle (h.trans (by simpa using hseq))

theorem calSound_finish (reason : BitVec 2) {s : State} (h : s.calSound) : (finish reason s).calSound := by
  unfold finish
  split
  · exact h
  · rw [finishR_eq]
    exact calSound_leaveR (by rw [concludeMeas_cal, disarm_cal])
  · rw [finishL_eq]
    exact calSound_leaveL rfl (by rw [setCal_cal, concludeMeas_cal, disarm_cal])

/-- Below the ceiling one more sleep is within it. -/
theorem calSound_countPoll {s : State} (h : s.calSound) (hlt : ¬ pollCeiling s ≤ s.cal.cnt) :
    (countPoll s).calSound := by
  obtain ⟨hseq, -, -⟩ := h
  have hsucc : s.cal.cnt + 1#32 ≤ pollCeiling s := by bv_omega
  refine ⟨hseq, fun hr => ?_, fun hl => ?_⟩
  · have hr' : s.cal.state = .rWait := hr
    rw [pollCeiling, hr'] at hsucc
    exact hsucc
  · have hl' : s.cal.state = .lWait := hl
    rw [pollCeiling, hl'] at hsucc
    exact hsucc

theorem calSound_calPoll {s : State} (h : s.calSound) : (calPoll s).calSound := by
  have hread : (reqRead s).calSound := calSound_of_eq rfl rfl h
  unfold calPoll
  split
  · exact h
  · rcases pollLoop_cases s with ⟨-, heq⟩ | ⟨-, -, heq⟩ | ⟨-, -, -, heq⟩ | ⟨hlt, -, -, heq⟩ <;> rw [heq]
    · exact calSound_finish _ h
    · exact calSound_finish _ hread
    · exact calSound_finish _ hread
    · exact calSound_countPoll hread hlt

theorem calSound_whenIdle {op : U8} {f : State → State} {s : State} (h : s.calSound)
    (hf : s.cal.state = .idle → (f s).calSound) : (whenIdle op f s).calSound := by
  unfold whenIdle
  split
  · next hidle => exact hf hidle
  · exact h

theorem calSound_calRunIdle {s : State} (h : s.calSound) (hidle : s.cal.state = .idle) : (calRunIdle s).calSound := by
  have hseq := seq_of_idle h hidle
  rw [calRunIdle_eq]
  split
  · exact calSound_of_idle hidle hseq
  · split
    · exact calSound_of_idle hidle hseq
    · exact calSound_startR _

/-- The four commands that move the sequencer (spec/45_calibration R271, R273, R278, R283). -/
def calibrates : Instr → Bool
  | .calRun | .calR | .calL | .calPoll => true
  | _ => false

theorem armCmd_cal_par (sel : U8) (s : State) : (armCmd sel s).cal = s.cal ∧ (armCmd sel s).par = s.par := by
  unfold armCmd
  split <;> simp

theorem disarmErrCmd_cal_par (sel : U8) (s : State) :
    (disarmErrCmd sel s).cal = s.cal ∧ (disarmErrCmd sel s).par = s.par := by
  unfold disarmErrCmd
  split <;> simp

theorem whenIdle_gains_cal_par (op : U8) (s : State) :
    (whenIdle op gains s).cal = s.cal ∧ (whenIdle op gains s).par = s.par := by
  unfold whenIdle
  split <;> simp

theorem cfgWr_cal_par (sel : U8) (data : U32) (s : State) :
    (cfgWr sel data s).cal = s.cal ∧ (cfgWr sel data s).par = s.par := by
  unfold cfgWr
  split <;> simp

theorem regRd_cal_par (sel : U8) (s : State) : (regRd sel s).cal = s.cal ∧ (regRd sel s).par = s.par := by
  unfold regRd
  split <;> exact ⟨rfl, rfl⟩

/-- No other operation touches the sequencer or the ceilings. -/
theorem nextState_cal_par {i : Instr} (h : calibrates i = false) (s : State) :
    (nextState i s).cal = s.cal ∧ (nextState i s).par = s.par := by
  cases i with
  | calRun | calR | calL | calPoll => cases h
  | arm sel => exact armCmd_cal_par sel s
  | disarmErr sel => exact disarmErrCmd_cal_par sel s
  | evalLim => exact ⟨evalLim_cal s, evalLim_par s⟩
  | maxTorque => exact ⟨torqueRead_cal s, torqueRead_par s⟩
  | updGains => exact whenIdle_gains_cal_par _ s
  | cfgWr sel data => exact cfgWr_cal_par sel data s
  | regRd sel => exact regRd_cal_par sel s
  | upd a b c => exact ⟨updCycle_cal _ s, updCycle_par _ s⟩
  | applyPwm => exact ⟨latchPwm_cal _ _ s, latchPwm_par _ _ s⟩
  | sanitize => exact ⟨sanFault_cal _ s, sanFault_par _ s⟩
  | dcfUpdate => exact ⟨filterUpdate_cal _ s, filterUpdate_par _ s⟩
  | leakChk => exact ⟨leakCheck_cal s, leakCheck_par s⟩
  | magChk => exact ⟨magCheck_cal s, magCheck_par s⟩
  | ibusChk => exact ⟨ibusCheck_cal s, ibusCheck_par s⟩
  | lawMeasR => exact ⟨measR_cal _ _ s, measR_par _ _ s⟩
  | lawMeasL => exact ⟨measL_cal _ _ _ s, measL_par _ _ _ s⟩
  | lawOutL => exact ⟨outL_cal s, outL_par s⟩
  | nop | disarm | clrErr | getR | getL | timEvent | adc2amp | infer | dcfValid | correct | duty2ccr | lawResetR | lawOutR
  | lawResetL | lawResetX | lawMeasX | lawOutX => exact ⟨rfl, rfl⟩

theorem nextState_calSound (i : Instr) {s : State} (h : s.calSound) : (nextState i s).calSound := by
  by_cases hi : calibrates i = false
  · obtain ⟨hcal, hpar⟩ := nextState_cal_par hi s
    exact calSound_of_eq hcal hpar h
  · cases i with
    | calRun => exact calSound_whenIdle h (calSound_calRunIdle h)
    | calR => exact calSound_whenIdle h fun _ => calSound_startR _
    | calL => exact calSound_whenIdle h fun _ => calSound_startL _
    | calPoll => exact calSound_calPoll h
    | _ => exact absurd rfl hi

/-! The invariant. -/

theorem nextState_maskInRange (i : Instr) {s : State} (h : s.maskInRange) : (nextState i s).maskInRange := by
  rcases clears_or_reads_or_disciplined i with rfl | rfl | hi
  · rw [State.maskInRange, nextState_clrErr, clearErr_run, BitVec.zero_and]
  · rwa [State.maskInRange, nextState_readError, emit_run]
  · obtain ⟨m, hm, herr⟩ := hi.exists_error_eq s
    rw [State.maskInRange, herr]
    exact InRange.or h hm

theorem nextState_armingSound (i : Instr) {s : State} (h : armingSound s) : armingSound (nextState i s) := by
  rcases clears_or_reads_or_disciplined i with rfl | rfl | hi
  · exact h
  · exact h
  · exact hi.keepsArming s h

theorem nextState_sound (i : Instr) {s : State} (h : s.sound) : (nextState i s).sound := by
  obtain ⟨hlaw, hmask, hchain, hcal⟩ := h
  obtain ⟨hlaw', hchain'⟩ := nextState_armingSound i ⟨hlaw, hchain⟩
  exact ⟨hlaw', nextState_maskInRange i hmask, hchain', nextState_calSound i hcal⟩

theorem exec_sound {i : Instr} {s t : State} (h : s.sound) (he : exec i s = .next t) : t.sound := by
  rw [eq_nextState_of_exec he]
  exact nextState_sound i h

theorem sound_of_eq {s t : State} (hpar : t.par = s.par) (hrun : t.run = s.run) (hcal : t.cal = s.cal)
    (htim : t.tim = s.tim) (h : s.sound) : t.sound := by
  simpa only [State.sound, State.armedIffLaw, State.maskInRange, State.enableChain, State.calSound, hpar, hrun, hcal,
    htim] using h

/-- Settles O13: whichever turn the step takes, it runs an operation on a sound state or changes no field the invariant
speaks of. -/
theorem stepKeepsSound : Obligations.StepKeepsSound := by
  intro s t h hstep
  have htaken : ∀ a, (takeArrival a s).sound := fun a =>
    sound_of_eq (takeArrival_par a s) (takeArrival_run a s) (takeArrival_cal a s) (takeArrival_tim a s) h
  rcases step_cases s t hstep with ⟨-, he⟩ | ⟨-, a, rest, -, hturn⟩ | ⟨-, -, rfl⟩
  · exact exec_sound (sound_of_eq (takeDue_par s) (takeDue_run s) (takeDue_cal s) (takeDue_tim s) h) he
  · rcases hturn with ⟨-, rfl⟩ | ⟨-, i, -, he⟩ | ⟨-, op, -, rfl⟩
    · exact htaken a
    · exact exec_sound (htaken a) he
    · exact sound_of_eq rfl rfl rfl rfl (htaken a)
  · exact h

/-- What every step keeps, every run keeps. -/
theorem run_induction {M : Host.Core} {P : M.State → Prop} (hstep : ∀ s t, P s → M.step s = .next t → P t) (k : ℕ)
    {s t : M.State} (h : P s) (hrun : M.run k s = .next t) : P t := by
  induction k generalizing s with
  | zero =>
    cases hrun
    exact h
  | succ k ih =>
    rw [Host.Core.run] at hrun
    split at hrun
    · next s' hs => exact ih (hstep s s' h hs) hrun
    · cases hrun
    · cases hrun

/-- Settles O14: the invariant holds at launch (O12) and every step keeps it (O13). -/
theorem reachableArmedIffLaw : Obligations.ReachableArmedIffLaw := by
  intro p l c ag e o k t hrun
  obtain ⟨hlaw, -⟩ := run_induction (M := core) (P := State.sound) stepKeepsSound k (sound_resetWith p l c ag e o) hrun
  exact hlaw

end Sys2Proof.Proofs

/-!
What an operation keeps of the timer's state (spec/20_memory R80, R84; spec/60_exceptions R304): said once, as a relation
that every operation but `TIM_EVENT` and the start of a cycle is in.
-/

namespace Sys2Proof.Proofs

open Sys2Proof.Machine Sys2Proof.Claims

/-! The relation. -/

/-- The fields the relation speaks of. -/
def timing (s : State) : Params × U32 × List Arrival × Bool × Bool × Bool × Wire ℕ :=
  (s.par, s.run.ts, s.agenda, s.owed, s.tim.uif, s.tim.moe, s.env.timEvents)

/-- From `s` to `t` no cycle started: the timestamp stands and what is to arrive still is; a pending event stays pending;
and with no timer event inside, none becomes pending and the outputs do not become driven. -/
structure Steady (s t : State) : Prop where
  par : t.par = s.par
  ts : t.run.ts = s.run.ts
  agenda : t.agenda = s.agenda
  owed : t.owed = s.owed
  pending : s.tim.uif = true → t.tim.uif = true
  calm : s.quiet → t.quiet ∧ (t.tim.uif = true → s.tim.uif = true) ∧ (t.driven → s.driven)

namespace Steady

/-- What touches none of the fields the relation speaks of. -/
theorem of_eq {s t : State} (h : timing t = timing s) : Steady s t := by
  simp only [timing, Prod.mk.injEq] at h
  obtain ⟨hpar, hts, hagenda, howed, huif, hmoe, hevents⟩ := h
  exact ⟨hpar, hts, hagenda, howed, huif.trans,
    fun hq => ⟨hevents.trans hq, huif.symm.trans, hmoe.symm.trans⟩⟩

theorem refl (s : State) : Steady s s := of_eq rfl

theorem trans {s t u : State} (h : Steady s t) (h' : Steady t u) : Steady s u where
  par := h'.par.trans h.par
  ts := h'.ts.trans h.ts
  agenda := h'.agenda.trans h.agenda
  owed := h'.owed.trans h.owed
  pending hu := h'.pending (h.pending hu)
  calm hq := by
    obtain ⟨hqt, huif, hmoe⟩ := h.calm hq
    obtain ⟨hqu, huif', hmoe'⟩ := h'.calm hqt
    exact ⟨hqu, fun hu => huif (huif' hu), fun hd => hmoe (hmoe' hd)⟩

end Steady

/-! Reads of the environment and single writes. -/

theorem steady_vbusRead (s : State) : Steady s (vbusRead s) := .of_eq rfl
theorem steady_brakeRead (s : State) : Steady s (brakeRead s) := .of_eq rfl
theorem steady_supRead (s : State) : Steady s (supRead s) := .of_eq rfl
theorem steady_reqRead (s : State) : Steady s (reqRead s) := .of_eq rfl
theorem steady_limRead (i : ℕ) (s : State) : Steady s (limRead i s) := .of_eq rfl
theorem steady_writeShA (c : U16) (s : State) : Steady s (writeShA c s) := .of_eq rfl
theorem steady_writeShB (c : U16) (s : State) : Steady s (writeShB c s) := .of_eq rfl
theorem steady_writeShC (c : U16) (s : State) : Steady s (writeShC c s) := .of_eq rfl
theorem steady_setDirection (d : Bool) (s : State) : Steady s (setDirection d s) := .of_eq rfl
theorem steady_latchCurrents (i : Triple F32) (s : State) : Steady s (latchCurrents i s) := .of_eq rfl
theorem steady_latchBus (ibus : F32) (s : State) : Steady s (latchBus ibus s) := .of_eq rfl
theorem steady_createR (s : State) : Steady s (createR s) := .of_eq rfl
theorem steady_createL (s : State) : Steady s (createL s) := .of_eq rfl
theorem steady_gains (s : State) : Steady s (gains s) := .of_eq rfl
theorem steady_setSeq (b : Bool) (s : State) : Steady s (setSeq b s) := .of_eq rfl
theorem steady_setCal (w : CalState) (s : State) : Steady s (setCal w s) := .of_eq rfl

/-! The fault mechanism, the timer and the latch arbiter. -/

theorem steady_disarm (s : State) : Steady s (disarm s) where
  par := rfl
  ts := rfl
  agenda := rfl
  owed := rfl
  pending h := h
  calm hq := ⟨hq, fun h => h, fun h => absurd h Bool.false_ne_true⟩

theorem steady_raise (k : ErrorKind) (s : State) : Steady s (raise k s) :=
  Steady.trans (t := withError (s.run.error ||| kindMask k) s) (.of_eq rfl) (steady_disarm _)

theorem steady_raiseIf (c : Bool) (k : ErrorKind) (s : State) : Steady s (raiseIf c k s) := by
  cases c
  · exact .refl s
  · exact steady_raise k s

/-- A boundary of a cycle: its events only set the flag, and there are none of a quiet cycle. -/
theorem steady_timSlot (s : State) : Steady s (timSlot s) where
  par := timSlot_par s
  ts := by rw [timSlot_run]
  agenda := timSlot_agenda s
  owed := timSlot_owed s
  pending h := by
    rcases timEvents_cases (timNow s) (timRead s) with ⟨-, heq⟩ | ⟨-, -, huif, -⟩
    · rw [timSlot, heq]
      exact h
    · exact huif
  calm h := by
    rw [timSlot_quiet s h]
    exact ⟨timRead_quiet s h, fun hu => hu, fun hd => hd⟩

theorem steady_testInterlock (s : State) : Steady s (testInterlock s) :=
  (steady_brakeRead s).trans (steady_raiseIf _ _ _)

theorem steady_setAoe (t : Bool) (s : State) : Steady s (setAoe t s) := by
  unfold setAoe
  split <;> exact .of_eq rfl

theorem steady_testLate (s : State) : Steady s (testLate s) := steady_raiseIf _ _ s

theorem steady_latchPwm (c : Triple U16) (t : Bool) (s : State) : Steady s (latchPwm c t s) :=
  (steady_timSlot s).trans <| (steady_testInterlock _).trans <| (steady_timSlot _).trans <|
    (steady_writeShA c.a _).trans <| (steady_timSlot _).trans <| (steady_writeShB c.b _).trans <|
    (steady_timSlot _).trans <| (steady_writeShC c.c _).trans <| (steady_timSlot _).trans <|
    (steady_setAoe t _).trans <| (steady_timSlot _).trans (steady_testLate _)

/-! Acquisition, limits and the laws. -/

theorem steady_sanFault (adc : Triple U32) (s : State) : Steady s (sanFault adc s) :=
  ((steady_raiseIf _ _ _).trans (steady_raiseIf _ _ _)).trans (steady_raiseIf _ _ _)

theorem steady_filterUpdate (i : Triple F32) (s : State) : Steady s (filterUpdate i s) := by
  unfold filterUpdate
  split <;> exact .of_eq rfl

theorem steady_baseLimRead (s : State) : Steady s (baseLimRead s) := by
  unfold baseLimRead
  split <;> exact .of_eq rfl

theorem steady_readLims (n i : ℕ) (s : State) : Steady s (readLims n i s) := by
  induction n generalizing i s with
  | zero => exact .refl s
  | succ n ih => exact (steady_limRead i s).trans (ih (i + 1) (limRead i s))

theorem steady_evalLim (s : State) : Steady s (evalLim s) :=
  ((steady_baseLimRead s).trans (steady_readLims s.par.nLim 0 _)).trans (.of_eq rfl)

theorem steady_torqueRead (s : State) : Steady s (torqueRead s) := by
  unfold torqueRead
  split <;> exact .of_eq rfl

theorem steady_measR (v ia : F32) (s : State) : Steady s (measR v ia s) := by
  unfold measR
  split_ifs <;> exact .of_eq rfl

theorem steady_measL (v ia : F32) (ts : U32) (s : State) : Steady s (measL v ia ts s) := by
  unfold measL
  split <;> exact .of_eq rfl

theorem steady_outL (s : State) : Steady s (outL s) := by
  unfold outL
  split <;> exact .of_eq rfl

theorem steady_lawMeas (l : LawSel) (v : F32) (i : Triple F32) (ts : U32) (s : State) :
    Steady s (lawMeas l v i ts s) := by
  cases l with
  | none => exact .refl s
  | rmeas => exact steady_measR v i.a s
  | lmeas => exact steady_measL v i.a ts s
  | ext => exact .of_eq rfl

theorem steady_lawOut (l : LawSel) (ts : U32) (s : State) : Steady s (lawOut l ts s) := by
  cases l with
  | none | rmeas => exact .refl s
  | lmeas => exact steady_outL s
  | ext => exact .of_eq rfl

/-! The update cycle. -/

theorem steady_superviseCheck (s : State) : Steady s (superviseCheck s) := by
  unfold superviseCheck
  split
  · exact (steady_supRead s).trans (steady_disarm _)
  · exact .of_eq rfl

theorem steady_raiseMeas (r : MeasResult) (s : State) : Steady s (raiseMeas r s) := by
  cases r with
  | success => exact .refl s
  | err k => exact steady_raise k s

theorem steady_feedLaw (s : State) : Steady s (feedLaw s) := by
  rw [feedLaw_eq]
  split
  · exact .refl s
  · exact ((steady_vbusRead s).trans (steady_lawMeas _ _ _ _ _)).trans (steady_raiseMeas _ _)

theorem steady_senseBody (i : Triple F32) (s : State) : Steady s (senseBody i s) :=
  (steady_latchCurrents i s).trans <| (steady_raiseIf _ _ _).trans <| (steady_superviseCheck _).trans <|
    (steady_evalLim _).trans <| (steady_raiseIf _ _ _).trans (steady_feedLaw _)

theorem steady_commitResult (r : Option OutResult) (s : State) : Steady s (commitResult r s) := by
  unfold commitResult
  split
  · exact .refl s
  · split
    · exact steady_latchPwm _ _ s
    · exact steady_raise _ s
  · split
    · exact .refl s
    · exact steady_raise _ s

theorem steady_commitBody (i : Triple F32) (s : State) : Steady s (commitBody i s) :=
  (steady_filterUpdate i s).trans <| (steady_lawOut _ _ _).trans <| (steady_commitResult _ _).trans <|
    (steady_latchBus _ _).trans (steady_raiseIf _ _ _)

theorem steady_runRole (role : Role) (adc : Triple U32) (s : State) : Steady s (runRole role adc s) := by
  cases role with
  | sense => exact (steady_sanFault adc s).trans (steady_senseBody _ _)
  | commit =>
    exact ((steady_latchPwm _ _ s).trans (steady_sanFault adc (fallback s))).trans (steady_commitBody _ _)

theorem steady_directCycle (adc : Triple U32) (s : State) : Steady s (directCycle adc s) := by
  unfold directCycle
  split
  · exact steady_raise _ s
  · exact (steady_setDirection s.tim.dir s).trans (steady_runRole _ adc _)

/-- After lines 1 and 2 a cycle is steady, whichever role it takes (spec/40_update_cycle R121). -/
theorem steady_updCycle (adc : Triple U32) (s : State) : Steady (beginCycle s) (updCycle adc s) :=
  (steady_timSlot _).trans (steady_directCycle adc _)

/-! Commands. -/

theorem steady_attach (l : LawSel) (s : State) : Steady s (attach l s) := by cases l <;> exact .of_eq rfl

theorem steady_armLaw (l : LawSel) (s : State) : Steady s (armLaw l s) := by
  rcases armLaw_cases l s with ⟨-, heq⟩ | ⟨-, heq⟩ <;> rw [heq]
  · exact (steady_brakeRead s).trans (steady_attach l _)
  · exact steady_brakeRead s

theorem steady_armCmd (sel : U8) (s : State) : Steady s (armCmd sel s) := by
  unfold armCmd
  split
  · exact steady_armLaw _ s
  · exact .of_eq rfl

theorem steady_disarmErrCmd (sel : U8) (s : State) : Steady s (disarmErrCmd sel s) := by
  unfold disarmErrCmd
  split
  · exact steady_raise _ s
  · exact .of_eq rfl

theorem steady_startR (s : State) : Steady s (startR s) :=
  (steady_createR s).trans ((steady_armLaw _ _).trans (.of_eq rfl))

theorem steady_startL (s : State) : Steady s (startL s) :=
  (steady_createL s).trans ((steady_armLaw _ _).trans (.of_eq rfl))

theorem steady_cfgWrite (n : ℕ) (v : U32) (s : State) : Steady s (cfgWrite n v s) := by
  unfold cfgWrite
  split <;> exact .of_eq rfl

theorem steady_concludeMeas (reg : ℕ) (k : ErrorKind) (op : U8) (reason : BitVec 2) (v : F32) (ok : Bool) (s : State) :
    Steady s (concludeMeas reg k op reason v ok s) :=
  ((steady_cfgWrite _ _ s).trans (steady_raiseIf _ _ _)).trans (.of_eq rfl)

theorem steady_leaveR (seq ok : Bool) (s : State) : Steady s (leaveR seq ok s) := by
  unfold leaveR
  split_ifs
  · exact steady_startL s
  all_goals exact .of_eq rfl

theorem steady_leaveL (seq ok : Bool) (s : State) : Steady s (leaveL seq ok s) := by
  unfold leaveL
  split_ifs <;> exact .of_eq rfl

theorem steady_finish (reason : BitVec 2) (s : State) : Steady s (finish reason s) := by
  rw [finish_eq]
  split_ifs
  · rw [finishR_eq]
    exact ((steady_disarm s).trans (steady_concludeMeas _ _ _ _ _ _ _)).trans (steady_leaveR _ _ _)
  · rw [finishL_eq]
    exact ((steady_disarm s).trans (steady_concludeMeas _ _ _ _ _ _ _)).trans
      ((steady_setCal _ _).trans (steady_leaveL _ _ _))
  · exact .refl s

theorem steady_calPoll (s : State) : Steady s (calPoll s) := by
  unfold calPoll
  split
  · exact .refl s
  · rcases pollLoop_cases s with ⟨-, heq⟩ | ⟨-, -, heq⟩ | ⟨-, -, -, heq⟩ | ⟨-, -, -, heq⟩ <;> rw [heq]
    · exact steady_finish _ s
    · exact (steady_reqRead s).trans (steady_finish _ _)
    · exact (steady_reqRead s).trans (steady_finish _ _)
    · exact .of_eq rfl

theorem steady_calRunIdle (s : State) : Steady s (calRunIdle s) := by
  rw [calRunIdle_eq]
  split_ifs
  · exact .of_eq rfl
  · exact .of_eq rfl
  · exact (steady_setSeq true s).trans (steady_startR _)

theorem steady_whenIdle (op : U8) {f : State → State} (hf : ∀ s, Steady s (f s)) (s : State) :
    Steady s (whenIdle op f s) := by
  unfold whenIdle
  split
  · exact hf s
  · exact .of_eq rfl

theorem steady_cfgWr (sel : U8) (data : U32) (s : State) : Steady s (cfgWr sel data s) := by
  unfold cfgWr
  split
  · exact .of_eq rfl
  · exact steady_cfgWrite _ _ s

theorem steady_regRd (sel : U8) (s : State) : Steady s (regRd sel s) := by
  unfold regRd
  split <;> exact .of_eq rfl

/-! Every operation. -/

/-- The operation is the timer's step or a cycle, the two that move the timer's state. -/
def movesTimer : Instr → Bool
  | .timEvent | .upd _ _ _ => true
  | _ => false

theorem steady_nextState {i : Instr} (h : movesTimer i = false) (s : State) : Steady s (nextState i s) := by
  cases i with
  | timEvent | upd a b c => cases h
  | arm sel => exact steady_armCmd sel s
  | disarm => exact (steady_disarm s).trans (.of_eq rfl)
  | disarmErr sel => exact steady_disarmErrCmd sel s
  | evalLim => exact (steady_evalLim s).trans (.of_eq rfl)
  | maxTorque => exact (steady_torqueRead s).trans (.of_eq rfl)
  | updGains => exact steady_whenIdle _ steady_gains s
  | calRun => exact steady_whenIdle _ steady_calRunIdle s
  | calR => exact steady_whenIdle _ (fun s => (steady_setSeq false s).trans (steady_startR _)) s
  | calL => exact steady_whenIdle _ (fun s => (steady_setSeq false s).trans (steady_startL _)) s
  | calPoll => exact steady_calPoll s
  | cfgWr sel data => exact steady_cfgWr sel data s
  | regRd sel => exact steady_regRd sel s
  | applyPwm => exact steady_latchPwm _ _ s
  | sanitize => exact (steady_sanFault _ s).trans (.of_eq rfl)
  | dcfUpdate => exact steady_filterUpdate _ s
  | leakChk | magChk | ibusChk => exact steady_raiseIf _ _ s
  | lawMeasR => exact (steady_measR _ _ s).trans (.of_eq rfl)
  | lawMeasL => exact (steady_measL _ _ _ s).trans (.of_eq rfl)
  | lawOutL => exact (steady_outL s).trans (.of_eq rfl)
  | nop | clrErr | getR | getL | adc2amp | infer | dcfValid | correct | duty2ccr | lawResetR | lawOutR | lawResetL
  | lawResetX | lawMeasX | lawOutX => exact .of_eq rfl

/-- Settles O17: a steady operation does not drive the outputs, nor does a cycle once begun; a timer event does with the
latch set, and makes the shadows active. -/
theorem drivenOnlyByTimerEvent : Obligations.DrivenOnlyByTimerEvent := by
  intro i s t hq he hoff hon
  rw [eq_nextState_of_exec he] at hon ⊢
  cases hi : movesTimer i with
  | false =>
    obtain ⟨-, -, hmoe⟩ := (steady_nextState hi s).calm hq
    exact absurd (hmoe hon) hoff
  | true =>
    cases i with
    | timEvent =>
      have hon' : (s.tim.moe || s.tim.aoe) = true := hon
      rw [Bool.or_eq_true] at hon'
      exact ⟨rfl, hon'.resolve_left hoff, rfl⟩
    | upd a b c =>
      obtain ⟨-, -, hmoe⟩ := (steady_updCycle ⟨a, b, c⟩ s).calm hq
      exact absurd (hmoe hon) hoff
    | _ => cases hi

/-! A pending event and the commands (spec/60_exceptions R304). -/

/-- A command word stands for no timer step and no cycle, and a reserved one is rejected (spec/30_encoding R96, R103). -/
theorem runArrival_cmd48_steady (w : BitVec 48) (s : State) :
    ∃ t, runArrival (.cmd48 w) s = .next t ∧ Steady s t := by
  have hdecode : (∃ i, decode (.cmd48 w) = .ok i ∧ movesTimer i = false) ∨
      ∃ op, decode (.cmd48 w) = .error (.reservedOp op) := by
    simp only [decode, decodeCmd]
    split <;> simp [movesTimer]
  rcases hdecode with ⟨i, hi, hmoves⟩ | ⟨op, hop⟩
  · exact ⟨nextState i s, by rw [runArrival, arrivalWord, hi, ← exec_eq_nextState], steady_nextState hmoves s⟩
  · exact ⟨reject op s, by rw [runArrival, arrivalWord, hop], .of_eq rfl⟩

/-- A run whose first step answers goes on from the answer. -/
theorem run_succ_of_step {M : Host.Core} {s t : M.State} (k : ℕ) (h : M.step s = .next t) :
    M.run (k + 1) s = M.run k t := by
  rw [Host.Core.run, h]

/-- A timer event goes before a cycle that is due, and leaves it due. -/
theorem step_timEvent_of_agenda {s : State} {o : Operands} {rest : List Arrival}
    (h : s.agenda = .uop8 0x80#8 o :: rest) :
    step s = .next (timEvent (popped (.uop8 0x80#8 o) rest s)) := by
  have hw : ¬ mustWait (.uop8 0x80#8 o) s := fun hwait => hwait.2.2 rfl
  rw [step_of_arrival h hw, enabled_popped rest (fun w hw => by cases hw), if_pos rfl]
  rfl

/-- The cycle of an event that can be delayed no further runs before the next command, whatever timer events arrive
first. -/
theorem run_dueCycle (n : ℕ) {s : State} {w : BitVec 48} {o : Operands} {rest : List Arrival}
    (huif : s.tim.uif = true) (howed : s.owed = true)
    (h : s.agenda = List.replicate n (.uop8 0x80#8 o) ++ .cmd48 w :: rest) :
    ∃ t : State, Host.Core.run core (n + 1) s = .next t ∧ t.run.ts = s.run.ts + s.par.tUpdTicks ∧
      t.agenda = .cmd48 w :: rest ∧ (s.quiet → t.tim.uif = false) := by
  induction n generalizing s with
  | zero =>
    have hdue : cycleDue s = true := (cycleDue_iff_mustWait h).mpr ⟨huif, howed, trivial⟩
    have hcycle := steady_updCycle ⟨(eventWordNow s).extractLsb' 64 32, (eventWordNow s).extractLsb' 32 32,
      (eventWordNow s).extractLsb' 0 32⟩ { eventWordRead s with owed := true }
    refine ⟨_, run_succ_of_step (M := core) 0 (step_of_cycleDue hdue), hcycle.ts, hcycle.agenda.trans h, fun hq => ?_⟩
    obtain ⟨-, hidle, -⟩ := hcycle.calm hq
    exact Bool.eq_false_iff.mpr fun hu => absurd (hidle hu) Bool.false_ne_true
  | succ n ih =>
    have hstep := step_timEvent_of_agenda (s := s) h
    rw [run_succ_of_step (M := core) (n + 1) hstep]
    have howed' : (timEvent (popped (.uop8 0x80#8 o) (List.replicate n (.uop8 0x80#8 o) ++ .cmd48 w :: rest) s)).owed =
        true := by
      simp [popped, huif, howed]
    exact ih rfl howed' rfl

/-- Settles O4: the first command keeps the event pending and uses up its delay; then the cycle is due. -/
theorem pendingEventDelayedByOneCommand : Obligations.PendingEventDelayedByOneCommand := by
  intro s w w' n o rest huif howed h
  have hw : ¬ mustWait (.cmd48 w) s := fun hwait => by
    obtain ⟨-, hdelayed, -⟩ := hwait
    exact absurd (howed.symm.trans hdelayed) Bool.false_ne_true
  obtain ⟨u, hrun, hu⟩ := runArrival_cmd48_steady w (popped (.cmd48 w) _ s)
  have hstep : step s = .next u := by
    rw [step_of_arrival h hw, enabled_popped _ (fun w hw => by cases hw), if_pos rfl, hrun]
  obtain ⟨t, hrun', hts, hagenda, hidle⟩ := run_dueCycle n (hu.pending huif) (hu.owed.trans huif) hu.agenda
  refine ⟨t, (run_succ_of_step (M := core) (n + 1) hstep).trans hrun', ?_, hagenda, fun hq => ?_⟩
  · rw [hts, hu.ts, hu.par]
    rfl
  · obtain ⟨hqu, -, -⟩ := hu.calm hq
    exact hidle hqu

end Sys2Proof.Proofs

/-!
The words of the statements and the machine's own: the same currents, filter, limit and trips, and a fault entry of a
block that is safely off as the bit it records (spec/42_acquisition_filter, spec/44_limits, spec/60_exceptions R306).
-/

namespace Sys2Proof.Proofs

open Sys2Proof.Machine Sys2Proof.Claims

/-! Fault entry. -/

/-- `BRK_RECOMP` of a disarm, as the statements write it (spec/41_arm_commit R158). -/
theorem disarm_out_eq (s : State) : (disarm s).out = s.out ++ brk s := by
  rw [disarm_out, brk]
  split <;> simp

theorem raise_eq_recorded (k : ErrorKind) (s : State) : raise k s = recorded (kindMask k) s := by
  have hout : (raise k s).out = s.out ++ brk s := disarm_out_eq _
  exact state_eq_of_fields _ _ rfl rfl rfl rfl rfl rfl rfl rfl rfl rfl hout rfl rfl rfl rfl rfl

/-- A fault of a block that is safely off is its bit (spec/41_arm_commit R160). -/
theorem raiseIf_eq_withError {c : Bool} {k : ErrorKind} {s : State} (h : s.safeOff) :
    raiseIf c k s = withError (s.run.error ||| bitIf (c = true) (kindMask k)) s := by
  cases c
  · rw [bitIf, if_neg Bool.false_ne_true, BitVec.or_zero]
    rfl
  · exact raiseIf_of_safeOff true k s h

/-- The same bit recorded on either of two conditions. -/
theorem bitIf_or (p q : Prop) [Decidable p] [Decidable q] (m : U32) : bitIf (p ∨ q) m = bitIf p m ||| bitIf q m := by
  by_cases hp : p <;> by_cases hq : q <;> simp [bitIf, hp, hq]

/-! Acquisition. -/

theorem sanFault_of_not_saturated {adc : Triple U32} {s : State} (h : ¬ anySaturated s.par adc) :
    sanFault adc s = s := by
  simp only [anySaturated, not_or, Bool.not_eq_true] at h
  obtain ⟨ha, hb, hc⟩ := h
  simp only [sanFault, saturates_eq, sensedA, sensedB, sensedC, ha, hb, hc, raiseIf_false]

/-- Three lanes record one bit (spec/42_acquisition_filter R182). -/
theorem sanFault_of_safeOff {adc : Triple U32} {s : State} (h : s.safeOff) :
    sanFault adc s = withError (s.run.error ||| bitIf (anySaturated s.par adc) 0x80#32) s := by
  have hraise : ∀ (c : Bool) (e : U32), raiseIf c .currentSenseSaturation (withError e s) =
      withError (e ||| bitIf (c = true) 0x80#32) s := fun c e => raiseIf_eq_withError (s := withError e s) h
  change raiseIf _ _ (raiseIf _ _ (raiseIf _ _ (withError s.run.error s))) = _
  simp only [hraise, saturates_eq, sensedA, sensedB, sensedC, anySaturated, bitIf_or, BitVec.or_assoc]

theorem phaseCurrents_eq (p : Params) (adc : Triple U32) : phaseCurrents p adc = currents p adc := by
  have hlane : ∀ (k : ℕ) (c : U32), adcToAmp p (sanLane p (p.senseMask.getLsbD k) c) = amps p (sanitized p k c) := by
    intro k c
    have hsan : sanLane p (p.senseMask.getLsbD k) c = sanitized p k c := by
      simp [sanLane, sanitized, saturates_eq]
    have hmid : (p.adcMid : ℤ) = 2 ^ (p.adcBits - 1) := by simp [Params.adcMid]
    rw [hsan, adcToAmp, amps, hmid]
  have hinfer : ∀ i, inferPhases p i = inferred p.senseMask i := by
    intro i
    unfold inferPhases inferred
    split <;> simp_all
  simp only [phaseCurrents, currents, sanCodes, sensedA, sensedB, sensedC, hlane, hinfer]

theorem filterUpdate_eq (i : Triple F32) (s : State) : filterUpdate i s = { s with dcf := filtered i s } := by
  unfold filterUpdate filtered anyNaN
  split <;> rfl

theorem dcfValid_eq (s : State) : dcfValid s = filterValid s := by
  simp only [dcfValid, filterValid, warmedUp, Bool.and_assoc, fewSensors, decide_not]
  rfl

theorem corrected_eq (s : State) (i : Triple F32) : Machine.corrected s i = Claims.corrected s i := by
  rw [Machine.corrected, dcfValid_eq]
  rfl

/-! The limit. -/

theorem foldLims_eq_foldl (n i : ℕ) (lim : F32) (s : State) :
    foldLims n i lim s = (answers n i s).foldl F32.min lim := by
  induction n generalizing i lim s with
  | zero => rfl
  | succ n ih => exact ih (i + 1) (F32.min lim (limNow i s)) (limRead i s)

theorem motorType_gimbal_iff (s : State) : motorType s = .gimbal ↔ s.cfg.get 0x00 = 1#32 := by
  have hget : s.cfg.get 0x00 = s.cfg[0x00] := rfl
  rw [motorType_eq, hget]
  split_ifs with h0 h1 h2 <;> simp_all

theorem effLim_eq (s : State) : effLim s = limit s := by
  simp only [effLim, limit, foldLims_eq_foldl, baseLim, baseLimRead, motorType_gimbal_iff]
  split_ifs <;> rfl

theorem answers_congr (n i : ℕ) {s t : State} (henv : t.env = s.env) : answers n i t = answers n i s := by
  induction n generalizing i s t with
  | zero => rfl
  | succ n ih =>
    have hwire : limWire i t = limWire i s := by rw [limWire, limWire, henv]
    have hnow : limNow i t = limNow i s := by rw [limNow, limNow, hwire, henv]
    have hread : (limRead i t).env = (limRead i s).env := by rw [limRead_env, limRead_env, hwire, henv]
    rw [answers, answers, hnow, ih (i + 1) hread]

/-- The limit rests on the parameters, the options and the environment alone (spec/44_limits R251). -/
theorem limit_congr {s t : State} (hpar : t.par = s.par) (hcfg : t.cfg = s.cfg) (henv : t.env = s.env) :
    limit t = limit s := by
  have hvbus : vbusNow t = vbusNow s := by rw [vbusNow, vbusNow, henv]
  simp only [limit, opt, hpar, hcfg, hvbus]
  split_ifs
  · rw [answers_congr _ _ (by rw [vbusRead_env, vbusRead_env, henv] : (vbusRead t).env = (vbusRead s).env)]
  · rw [answers_congr _ _ henv]

theorem evalLim_eq (s : State) :
    evalLim s = { s with lat := { s.lat with iLimEff := limit s }, env := (evalLim s).env } := by
  apply state_eq_of_fields <;> simp [effLim_eq]

/-! The comparators. -/

theorem ibusTrips_iff (s : State) : ibusTrips s = true ↔ busTrips s := Bool.or_eq_true_iff

end Sys2Proof.Proofs

/-!
Timer events at the boundaries of a cycle (spec/20_memory R80; spec/41_arm_commit R162 to R164): the timer after any number
of them, and the latch arbiter with the interlock satisfied, wherever they fall.
-/

namespace Sys2Proof.Proofs

open Sys2Proof.Machine Sys2Proof.Claims

/-! Events. -/

theorem timEvent_eq (s : State) : timEvent s = { s with tim := eventTim s.tim } := by
  have hmoe : (s.tim.moe || s.tim.aoe) = if s.tim.aoe then true else s.tim.moe := by
    cases s.tim.aoe <;> simp
  rw [timEvent, eventTim, hmoe]

theorem timEvents_eq (n : ℕ) (s : State) : timEvents n s = { s with tim := eventTim^[n] s.tim } := by
  induction n generalizing s with
  | zero => rfl
  | succ n ih => rw [timEvents, timEvent_eq, ih, Function.iterate_succ_apply]

theorem eventTim_iterate_dir (m : ℕ) (T : Tim) : (eventTim^[m] T).dir = not^[m] T.dir :=
  Function.Semiconj.iterate_right (f := Tim.dir) (fun _ => rfl) m T

/-- One event or more: the shadows are active, the enable follows the latch, the flag is pending (R166). -/
theorem eventTim_iterate {m : ℕ} (hm : 1 ≤ m) (T : Tim) :
    eventTim^[m] T =
      { ccrSh := T.ccrSh, ccrAct := T.ccrSh, aoe := T.aoe, moe := T.moe || T.aoe, uif := true, dir := not^[m] T.dir } := by
  induction m, hm using Nat.le_induction generalizing T with
  | base => cases h : T.aoe <;> simp [eventTim, h]
  | succ m hm ih => cases h : T.aoe <;> simp [Function.iterate_succ_apply, ih, eventTim, h]

/-- The flag that stood before an event does not matter. -/
theorem eventTim_iterate_uif {m : ℕ} (hm : 1 ≤ m) (T : Tim) (b : Bool) :
    eventTim^[m] { T with uif := b } = eventTim^[m] T := by
  rw [eventTim_iterate hm, eventTim_iterate hm]

/-! A boundary. -/

/-- A boundary at which the next queued number of events fall, none when the queue is empty. -/
theorem timSlot_eq (s : State) (h : s.env.timEvents.held = some 0) :
    timSlot s = { timRead s with tim := eventTim^[s.env.timEvents.queued.getD 0 0] s.tim } := by
  have hnow : timNow s = s.env.timEvents.queued.getD 0 0 := by
    rw [timNow, Wire.now, h]
    cases s.env.timEvents.queued <;> rfl
  rw [timSlot, timEvents_eq, hnow]
  rfl

/-! The latch arbiter. -/

/-- The timer through an `APPLY_PWM` of codes `c` that writes the latch as `on` says, `l` being the numbers of events at
its boundaries. -/
def arbiter (c : Triple U16) (on : Bool) (l : List ℕ) (T : Tim) : Tim :=
  let T0 := eventTim^[l.getD 1 0] (eventTim^[l.getD 0 0] T)
  let T1 := eventTim^[l.getD 2 0] { T0 with ccrSh := { T0.ccrSh with a := c.a } }
  let T2 := eventTim^[l.getD 3 0] { T1 with ccrSh := { T1.ccrSh with b := c.b } }
  let T3 := eventTim^[l.getD 4 0] { T2 with ccrSh := { T2.ccrSh with c := c.c } }
  eventTim^[l.getD 5 0] { T3 with aoe := T3.aoe || on }

/-- No event at any of the six boundaries (R162). -/
theorem arbiter_idle (c : Triple U16) (on : Bool) {l : List ℕ} (h : ∀ i < 6, l.getD i 0 = 0) (T : Tim) :
    arbiter c on l T = { T with ccrSh := c, aoe := T.aoe || on } := by
  simp only [arbiter, h 0 (by omega), h 1 (by omega), h 2 (by omega), h 3 (by omega), h 4 (by omega), h 5 (by omega),
    Function.iterate_zero, id_eq]

/-- Events at boundary `k` alone (R163): what they latch is torn between the codes and the old shadows. -/
theorem floating_arbiter_late (c : Triple U16) (on : Bool) {k m : ℕ} (hk : k ≤ 5) (hm : 1 ≤ m) (T : Tim) :
    floating (arbiter c on (List.replicate k 0 ++ [m]) T) =
      { ccrSh := c, ccrAct := torn k c T.ccrSh, aoe := false, moe := false, uif := true,
        dir := not^[m] T.dir } := by
  interval_cases k <;> simp [arbiter, eventTim_iterate hm, floating, torn, List.replicate]

/-- The environment after an `APPLY_PWM`: six boundaries passed, the interlock read. -/
def pwmEnv (e : Env) : Env :=
  { e with
    timEvents := { e.timEvents with queued := e.timEvents.queued.drop 6 }
    drawn := e.drawn + 7 }

/-- `APPLY_PWM` with the interlock satisfied: the timer's way through it, then the test for a late event. -/
theorem latchPwm_eq_testLate (c : Triple U16) (t : Bool) {s : State} (hb : s.env.brakeOk = held true)
    (h0 : s.env.timEvents.held = some 0) :
    latchPwm c t s = testLate
      { s with
        tim := arbiter c (!t && s.run.isArmed) s.env.timEvents.queued s.tim
        env := pwmEnv s.env } := by
  have hnow : brakeNow (timSlot s) = true := by simp [brakeNow, hb, Wire.now, held]
  have hlock : testInterlock (timSlot s) = brakeRead (timSlot s) := by rw [testInterlock, hnow]; rfl
  have hslot : ∀ x : State, x.env.timEvents.held = some 0 →
      (timSlot x).tim = eventTim^[x.env.timEvents.queued.getD 0 0] x.tim := fun x hx => by rw [timSlot_eq x hx]
  rw [latchPwm, hlock]
  congr 1
  apply state_eq_of_fields
  case h10 => simp [hslot, h0, Wire.next, arbiter]
  case h13 => simp [Wire.next, pwmEnv, hb, held, ← List.drop_one]
  all_goals simp

/-- No event at a boundary and none pending: the shadows take the codes, the latch is set non-tentatively while armed. -/
theorem latchPwm_of_idle (c : Triple U16) (t : Bool) {s : State} (hb : s.env.brakeOk = held true)
    (h0 : s.env.timEvents.held = some 0) (hidle : ∀ i < 6, s.env.timEvents.queued.getD i 0 = 0)
    (huif : s.tim.uif = false) :
    latchPwm c t s =
      { s with
        tim := { s.tim with ccrSh := c, aoe := s.tim.aoe || (!t && s.run.isArmed) }
        env := pwmEnv s.env } := by
  rw [latchPwm_eq_testLate c t hb h0, arbiter_idle c _ hidle, testLate]
  simp only [huif, raiseIf_false]

/-- An event pending at the end of the call, from before it or from one of its boundaries: the fault of R164. -/
theorem latchPwm_of_pending (c : Triple U16) (t : Bool) {s : State} (hb : s.env.brakeOk = held true)
    (h0 : s.env.timEvents.held = some 0) {T : Tim}
    (hT : floating (arbiter c (!t && s.run.isArmed) s.env.timEvents.queued s.tim) = T) (huif : T.uif = true) :
    latchPwm c t s = { recorded 0x40#32 s with tim := T, env := pwmEnv s.env } := by
  subst hT
  have hpending : (arbiter c (!t && s.run.isArmed) s.env.timEvents.queued s.tim).uif = true := huif
  rw [latchPwm_eq_testLate c t hb h0, testLate]
  simp only [hpending, raiseIf_true, raise_eq_recorded]
  rfl

/-- Events at boundary `k` (R163): what they latch is torn, and the deadline is missed (R164). -/
theorem latchPwm_of_late (c : Triple U16) (t : Bool) {s : State} {k m : ℕ} (hm : 1 ≤ m) (hk : k ≤ 5)
    (hb : s.env.brakeOk = held true) (hevents : s.env.timEvents = eventsAt k m) :
    latchPwm c t s =
      { recorded 0x40#32 s with
        tim :=
          { ccrSh := c, ccrAct := torn k c s.tim.ccrSh, aoe := false, moe := false, uif := true,
            dir := not^[m] s.tim.dir }
        env := pwmEnv s.env } := by
  refine latchPwm_of_pending c t hb (by rw [hevents]; rfl) ?_ rfl
  rw [hevents]
  exact floating_arbiter_late c _ hk hm s.tim

end Sys2Proof.Proofs

/-!
The update cycle (spec/40_update_cycle R121, R128, R129): a `SENSE` cycle and what a pending event changes of it; both
roles of a block that is safely off when the codes are sanitised; the laws as they are asked.
-/

namespace Sys2Proof.Proofs

open Sys2Proof.Machine Sys2Proof.Claims

/-! The pending flag in a `SENSE` cycle: nothing reads it. -/

/-- The state with another pending flag. -/
def withUif (b : Bool) (s : State) : State := { s with tim := { s.tim with uif := b } }

theorem withUif_eq_self {b : Bool} {s : State} (h : s.tim.uif = b) : withUif b s = s := by
  subst h
  rfl

theorem withUif_withUif (b b' : Bool) (s : State) : withUif b (withUif b' s) = withUif b s := rfl

theorem raiseIf_withUif (c : Bool) (k : ErrorKind) (b : Bool) (s : State) :
    raiseIf c k (withUif b s) = withUif b (raiseIf c k s) := by cases c <;> rfl

theorem sanFault_withUif (adc : Triple U32) (b : Bool) (s : State) :
    sanFault adc (withUif b s) = withUif b (sanFault adc s) := by
  have hpar : (withUif b s).par = s.par := rfl
  simp only [sanFault, hpar, raiseIf_withUif]

theorem superviseCheck_withUif (b : Bool) (s : State) :
    superviseCheck (withUif b s) = withUif b (superviseCheck s) := by
  unfold superviseCheck
  rw [apply_ite (withUif b)]
  rfl

theorem baseLimRead_withUif (b : Bool) (s : State) : baseLimRead (withUif b s) = withUif b (baseLimRead s) := by
  unfold baseLimRead
  rw [apply_ite (withUif b)]
  rfl

theorem readLims_withUif (n i : ℕ) (b : Bool) (s : State) :
    readLims n i (withUif b s) = withUif b (readLims n i s) := by
  induction n generalizing i s with
  | zero => rfl
  | succ n ih => exact ih (i + 1) (limRead i s)

theorem evalLim_withUif (b : Bool) (s : State) : evalLim (withUif b s) = withUif b (evalLim s) := by
  have hlim : effLim (withUif b s) = effLim s := by
    rw [effLim_eq, effLim_eq]
    exact limit_congr rfl rfl rfl
  have hpar : (withUif b s).par = s.par := rfl
  rw [evalLim, hlim, baseLimRead_withUif, hpar, readLims_withUif]
  rfl

theorem raiseMeas_withUif (r : MeasResult) (b : Bool) (s : State) :
    raiseMeas r (withUif b s) = withUif b (raiseMeas r s) := by cases r <;> rfl

theorem lawMeas_withUif (l : LawSel) (v : F32) (i : Triple F32) (ts : U32) (b : Bool) (s : State) :
    lawMeas l v i ts (withUif b s) = withUif b (lawMeas l v i ts s) := by
  cases l with
  | none | ext => rfl
  | rmeas =>
    simp only [lawMeas, measR]
    rw [apply_ite (withUif b), apply_ite (withUif b)]
    rfl
  | lmeas =>
    simp only [lawMeas, measL]
    rw [apply_ite (withUif b)]
    rfl

theorem feedLaw_withUif (b : Bool) (s : State) : feedLaw (withUif b s) = withUif b (feedLaw s) := by
  have hresult : fedResult (withUif b s) = fedResult s := by
    have h : ∀ l v i t, lawMeasResult l v i (withUif b t) = lawMeasResult l v i t := fun l v i t => by cases l <;> rfl
    exact h _ _ _ (vbusRead s)
  have hfed : fed (withUif b s) = withUif b (fed s) := lawMeas_withUif _ _ _ _ b (vbusRead s)
  rw [feedLaw_eq, feedLaw_eq, hresult, hfed, raiseMeas_withUif, apply_ite (withUif b)]
  rfl

/-- A `SENSE` cycle that goes on leaves the flag as it finds it, and is the same for either. -/
theorem runRole_sense_withUif (adc : Triple U32) (b : Bool) (s : State) :
    runRole .sense adc (withUif b s) = withUif b (runRole .sense adc s) := by
  have hlatch : ∀ i t, latchCurrents i (withUif b t) = withUif b (latchCurrents i t) := fun _ _ => rfl
  have hleak : ∀ t, leakCheck (withUif b t) = withUif b (leakCheck t) := fun t => raiseIf_withUif _ _ b t
  have hmag : ∀ t, magCheck (withUif b t) = withUif b (magCheck t) := fun t => raiseIf_withUif _ _ b t
  have hpar : (withUif b s).par = s.par := rfl
  simp only [runRole, senseBody, hpar, sanFault_withUif, hlatch, hleak, superviseCheck_withUif, evalLim_withUif, hmag,
    feedLaw_withUif]

/-! A `SENSE` cycle of a block that is safely off. -/

theorem superviseCheck_of_safeOff {s : State} (h : s.safeOff) : superviseCheck s = supRead s := by
  have hoff : disarm (supRead s) = supRead s := disarm_of_safeOff (supRead s) h
  rw [superviseCheck, hoff, ite_self]

/-- The latches as `SENSE_BODY` leaves them (R128). -/
def senseLatched (i : Triple F32) (s : State) : State :=
  { s with
    lat :=
      { s.lat with
        iMeas := Claims.corrected s i, iLeak := leakSum (Claims.corrected s i), iLimEff := limit (supRead s) } }

/-- `SENSE_BODY` latches, and records what trips; the law, none, is not fed. -/
theorem senseBody_of_safeOff (i : Triple F32) {s : State} (h : s.safeOff) :
    ∃ e : Env, senseBody i s =
      withError
        (s.run.error ||| bitIf (leaks (senseLatched i s)) 0x100#32 ||| bitIf (overCurrent (senseLatched i s)) 0x200#32)
        { senseLatched i s with env := e } := by
  have hlatch : latchCurrents i s =
      { s with
        lat :=
          { s.lat with iMeas := Claims.corrected s i, iLeak := leakSum (Claims.corrected s i) } } := by
    rw [latchCurrents, corrected_eq]
  have hleak : leakCheck (latchCurrents i s) =
      withError (s.run.error ||| bitIf (leaks (senseLatched i s)) 0x100#32) (latchCurrents i s) := by
    rw [hlatch]
    exact raiseIf_eq_withError (c := leakTrips _) h
  refine ⟨(evalLim (supRead (leakCheck (latchCurrents i s)))).env, ?_⟩
  have hsup : superviseCheck (leakCheck (latchCurrents i s)) = supRead (leakCheck (latchCurrents i s)) :=
    superviseCheck_of_safeOff (by rw [hleak]; exact h)
  have hlim : limit (supRead (leakCheck (latchCurrents i s))) = limit (supRead s) := by
    rw [hleak]
    exact limit_congr rfl rfl rfl
  have heval : evalLim (supRead (leakCheck (latchCurrents i s))) =
      withError (s.run.error ||| bitIf (leaks (senseLatched i s)) 0x100#32)
        { senseLatched i s with env := (evalLim (supRead (leakCheck (latchCurrents i s)))).env } := by
    rw [evalLim_eq, hlim, hleak, hlatch]
    rfl
  have hmag : ∀ (m : U32) (e : Env), magCheck (withError m { senseLatched i s with env := e }) =
      withError (m ||| bitIf (overCurrent (senseLatched i s)) 0x200#32) { senseLatched i s with env := e } :=
    fun m e => raiseIf_eq_withError (c := magTrips _) (s := withError m { senseLatched i s with env := e }) h
  rw [senseBody, hsup, heval, hmag, feedLaw_none _ (by obtain ⟨-, -, hlaw, -⟩ := h; exact hlaw)]
  rfl

/-- It latches, and records what trips (R128); the law, none, is not fed. -/
theorem runRole_sense_of_safeOff (adc : Triple U32) {s : State} (h : s.safeOff) :
    ∃ t : State, runRole .sense adc s = t ∧
      t.lat =
        { s.lat with
          iMeas := Claims.corrected s (currents s.par adc)
          iLeak := leakSum (Claims.corrected s (currents s.par adc))
          iLimEff := limit (supRead s) } ∧
      t.run =
        { s.run with
          error :=
            s.run.error ||| bitIf (anySaturated s.par adc) 0x80#32 ||| bitIf (leaks t) 0x100#32 |||
              bitIf (overCurrent t) 0x200#32 } ∧
      t = { s with lat := t.lat, run := t.run, env := t.env } := by
  obtain ⟨e, he⟩ := senseBody_of_safeOff (currents s.par adc)
    (s := withError (s.run.error ||| bitIf (anySaturated s.par adc) 0x80#32) s) h
  have hlim : limit (supRead (withError (s.run.error ||| bitIf (anySaturated s.par adc) 0x80#32) s)) =
      limit (supRead s) := limit_congr rfl rfl rfl
  refine ⟨_, rfl, ?_⟩
  rw [runRole, phaseCurrents_eq, sanFault_of_safeOff h, he]
  simp only [senseLatched, hlim]
  exact ⟨rfl, rfl, rfl⟩

/-! A `COMMIT` cycle of a block that is safely off after its fallback. -/

/-- The bus current a disarmed block latches (R133). -/
def zeroBus (s : State) : State := { s with lat := { s.lat with iBus := F32.zero } }

theorem ibusCheck_latchBus_of_safeOff (ibus : F32) {s : State} (h : s.safeOff) :
    ibusCheck (latchBus ibus s) =
      withError (s.run.error ||| bitIf (busTrips (zeroBus s)) 0x400#32) (zeroBus s) := by
  have hbus : latchBus ibus s = zeroBus s := by
    obtain ⟨-, -, -, harm⟩ := h
    rw [latchBus, harm]
    rfl
  have htrips : bitIf (ibusTrips (zeroBus s) = true) (kindMask .iBusOutOfRange) =
      bitIf (busTrips (zeroBus s)) 0x400#32 := by
    simp only [bitIf, ibusTrips_iff]
    rfl
  rw [hbus, ibusCheck, raiseIf_eq_withError (s := zeroBus s) h, htrips]
  rfl

/-- Without a law the body updates the filter and checks a zero bus current (R129, R134). -/
theorem commitBody_of_safeOff (i : Triple F32) {s : State} (h : s.safeOff) :
    commitBody i s =
      withError (s.run.error ||| bitIf (busTrips (zeroBus s)) 0x400#32)
        (zeroBus { s with dcf := filtered i s }) := by
  obtain ⟨-, -, hlaw, -⟩ := id h
  have hnone : commitBody i s = commitTail none { s with dcf := filtered i s } := by
    rw [commitBody, filterUpdate_eq]
    simp only [hlaw]
    rfl
  rw [hnone]
  exact ibusCheck_latchBus_of_safeOff _ (s := { s with dcf := filtered i s }) h

/-- A fallback that ends with an event pending, timer `T`, disarms before any law is asked (R126, R164); what else
applies is recorded (R135). -/
theorem runRole_commit_of_pending (adc : Triple U32) {s : State} (hb : s.env.brakeOk = held true)
    (h0 : s.env.timEvents.held = some 0) {T : Tim}
    (hT : floating (arbiter (halves s.par) false s.env.timEvents.queued s.tim) = T) (huif : T.uif = true) :
    ∃ t : State, runRole .commit adc s = t ∧ t.tim = T ∧
      t.run =
        { s.run with
          law := .none
          isArmed := false
          error :=
            s.run.error ||| 0x40#32 ||| bitIf (anySaturated s.par adc) 0x80#32 ||| bitIf (busTrips t) 0x400#32 } ∧
      t = { s with
            tim := t.tim
            run := t.run
            env := t.env
            dcf := filtered (currents s.par adc) s
            lat := { s.lat with iBus := F32.zero }
            out := s.out ++ brk s } := by
  have hfallback : fallback s = { recorded 0x40#32 s with tim := T, env := pwmEnv s.env } :=
    latchPwm_of_pending (halves s.par) true hb h0 hT huif
  have hoff : (fallback s).safeOff := by
    rw [hfallback, ← hT]
    exact ⟨rfl, rfl, rfl, rfl⟩
  refine ⟨_, rfl, ?_⟩
  rw [runRole, phaseCurrents_eq, sanFault_of_safeOff hoff]
  rw [commitBody_of_safeOff _ (by exact hoff), hfallback]
  exact ⟨rfl, rfl, rfl⟩

/-! A `COMMIT` cycle that asks the law. -/

/-- The state after a fallback that no event disturbs (R126). -/
def fallenBack (s : State) : State := { s with tim := { s.tim with ccrSh := halves s.par }, env := pwmEnv s.env }

theorem fallback_of_idle {s : State} (hb : s.env.brakeOk = held true) (h0 : s.env.timEvents.held = some 0)
    (hidle : ∀ i < 6, s.env.timEvents.queued.getD i 0 = 0) (huif : s.tim.uif = false) :
    fallback s = fallenBack s := by
  have hlatch := latchPwm_of_idle (halves s.par) true hb h0 hidle huif
  rw [Bool.not_true, Bool.false_and, Bool.or_false] at hlatch
  exact hlatch

theorem lawOutResult_eq {l : LawSel} (hl : l ≠ .none) {s : State} {v : F32} {q : OutResult} (hv : s.env.vbus = held v)
    (hq : s.env.extOut = held q) : lawOutResult l s = some (askedAnswer l q v s) := by
  have hvbus : vbusNow s = v := by rw [vbusNow, hv]; rfl
  have hext : extOutNow s = q := by rw [extOutNow, hq]; rfl
  cases l with
  | none => exact absurd rfl hl
  | rmeas => rfl
  | lmeas => rw [lawOutResult, outLResult, hvbus]; rfl
  | ext => rw [lawOutResult, hext]; rfl

/-- What asking the law does beside the answer (spec/43_control_law R223, R231, R237). -/
theorem lawOut_eq (l : LawSel) (ts : U32) {s : State} {v : F32} (hv : s.env.vbus = held v) :
    ∃ e : Env, lawOut l ts s =
      { s with
        lk := if l = .lmeas then flippedL v s else s.lk
        out := s.out ++ (if l = .ext then [.lawOutExt ts] else [])
        env := e } ∧ e.brakeOk = s.env.brakeOk ∧ e.timEvents = s.env.timEvents := by
  have hvbus : vbusNow s = v := by rw [vbusNow, hv]; rfl
  cases l with
  | none | rmeas => exact ⟨s.env, by simp [lawOut], rfl, rfl⟩
  | lmeas =>
    refine ⟨(vbusRead s).env, ?_, rfl, rfl⟩
    by_cases hn : v.isNaN = true <;> simp [lawOut, outL, hvbus, flippedL, hn, vbusRead, flipL]
  | ext => exact ⟨(extOutRead s).env, rfl, rfl, rfl⟩

theorem validDuty_iff (d : Triple F32) : validDuty d = true ↔ dutyOk d := by
  simp [validDuty, inUnit, dutyOk, and_assoc]

theorem dutyCodes_eq (p : Params) {d : Triple F32} (h : dutyOk d) : dutyCodes p d = codes p d := by
  have hlane : ∀ x : F32, F32.le F32.zero x = true ∧ F32.le x F32.one = true → dutyToCcr p x = ccr p x := by
    rintro x ⟨h0, h1⟩
    rw [dutyToCcr, inUnit, h0, h1]
    rfl
  obtain ⟨ha, hb, hc⟩ := h
  rw [dutyCodes, codes, hlane _ ha, hlane _ hb, hlane _ hc]

/-- The state in which the answer of the law is committed: the filter updated with currents `i`, the law asked with the
bus voltage at `v`, the environment at `e` (R129). -/
def lawAsked (i : Triple F32) (v : F32) (e : Env) (s : State) : State :=
  { s with
    dcf := filtered i s
    lk := if s.run.law = .lmeas then flippedL v s else s.lk
    out := s.out ++ (if s.run.law = .ext then [.lawOutExt (lookAheadTs s)] else [])
    env := e }

/-- A valid duty vector is committed, and the bus current checked (R129 to R134). -/
theorem commitBody_of_duty (i : Triple F32) {s : State} {v : F32} {q : OutResult} {x : Triple F32}
    (hlaw : s.run.law ≠ .none) (hv : s.env.vbus = held v) (hq : s.env.extOut = held q)
    (hask : askedAnswer s.run.law q v s = .duty x) (hx : dutyOk x) :
    ∃ (e : Env) (ibus : F32),
      commitBody i s = ibusCheck (latchBus ibus (latchPwm (codes s.par x) false (lawAsked i v e s))) ∧
        e.brakeOk = s.env.brakeOk ∧ e.timEvents = s.env.timEvents := by
  obtain ⟨e, hout, hbrake, hevents⟩ := lawOut_eq s.run.law (lookAheadTs s) (s := { s with dcf := filtered i s }) hv
  have hresult : lawOutResult s.run.law { s with dcf := filtered i s } = some (.duty x) := by
    rw [lawOutResult_eq hlaw (s := { s with dcf := filtered i s }) hv hq, ← hask]
    rfl
  have hcommit : commitBody i s = commitTail (some (.duty x)) (lawAsked i v e s) := by
    rw [commitBody, filterUpdate_eq]
    exact congrArg₂ commitTail hresult hout
  refine ⟨e, ibusSum (lawAsked i v e s) x, ?_, hbrake, hevents⟩
  have hpar : (lawAsked i v e s).par = s.par := rfl
  rw [hcommit, commitTail, resultBus, commitResult, (validDuty_iff x).mpr hx, if_pos rfl, if_pos rfl, hpar,
    dutyCodes_eq s.par hx]

/-- Events at boundary `k` of the committing `APPLY_PWM` of an armed block (R163, R164): the codes stand in the shadows,
and the deadline is missed. -/
theorem runRole_commit_of_late (adc : Triple U32) {s : State} {k m : ℕ} {v : F32} {q : OutResult} {x : Triple F32}
    (hm : 1 ≤ m) (hk : k ≤ 5) (hevents : s.env.timEvents = eventsAt (k + 6) m) (hb : s.env.brakeOk = held true)
    (huif : s.tim.uif = false) (hlaw : s.run.law ≠ .none) (harm : s.run.isArmed = true) (hv : s.env.vbus = held v)
    (hq : s.env.extOut = held q) (hask : askedAnswer s.run.law q v s = .duty x) (hx : dutyOk x)
    (hsat : ¬ anySaturated s.par adc) :
    ∃ t : State, runRole .commit adc s = t ∧
      t.tim =
        { ccrSh := codes s.par x, ccrAct := torn k (codes s.par x) (halves s.par), aoe := false, moe := false,
          uif := true, dir := not^[m] s.tim.dir } ∧
      t.run =
        { s.run with
          law := .none
          isArmed := false
          error := s.run.error ||| 0x40#32 ||| bitIf (busTrips t) 0x400#32 } ∧
      t = { s with
            tim := t.tim
            run := t.run
            env := t.env
            dcf := filtered (currents s.par adc) s
            lat := { s.lat with iBus := F32.zero }
            lk := if s.run.law = .lmeas then flippedL v s else s.lk
            out := s.out ++ (if s.run.law = .ext then [.lawOutExt (lookAheadTs s)] else []) ++ [.brkRecomp] } := by
  have hfallback : fallback s = fallenBack s := by
    refine fallback_of_idle hb (by rw [hevents]; rfl) (fun i hi => ?_) huif
    rw [hevents]
    interval_cases i <;> rfl
  obtain ⟨e, ibus, hcommit, hbrake, hqueue⟩ := commitBody_of_duty (currents s.par adc) (s := fallenBack s) (x := x)
    hlaw hv hq hask hx
  have hlast : (pwmEnv s.env).timEvents = eventsAt k m := by
    rw [pwmEnv, hevents]
    rfl
  have hlate := latchPwm_of_late (codes s.par x) false (s := lawAsked (currents s.par adc) v e (fallenBack s)) hm hk
    (hbrake.trans hb) (hqueue.trans hlast)
  have hpar : (fallenBack s).par = s.par := rfl
  rw [hpar, hlate, ibusCheck_latchBus_of_safeOff _ (by exact ⟨rfl, rfl, rfl, rfl⟩)] at hcommit
  refine ⟨_, rfl, ?_⟩
  rw [runRole, phaseCurrents_eq, hfallback, sanFault_of_not_saturated (by exact hsat), hcommit]
  have hbrk : brk (lawAsked (currents s.par adc) v e (fallenBack s)) = [.brkRecomp] := if_pos harm
  refine ⟨rfl, rfl, ?_⟩
  simp only [zeroBus, withError, recorded, hbrk]
  rfl

end Sys2Proof.Proofs

/-!
Timer events inside a cycle (spec/20_memory R80, R340): before line 3, in a `SENSE` and in a `COMMIT` cycle, and at a
boundary of one of its `APPLY_PWM`s.
-/

namespace Sys2Proof.Proofs

open Sys2Proof.Machine Sys2Proof.Claims

/-! Line 3. -/

/-- The state that reads the direction, `m` events having fallen before it. -/
def atLine3 (m : ℕ) (s : State) : State := { begun s with tim := eventTim^[m] s.tim, env := (timRead s).env }

theorem updCycle_of_events (adc : Triple U32) {s : State} {m : ℕ} (hm : 1 ≤ m)
    (hevents : s.env.timEvents = eventsAt 0 m) : updCycle adc s = directCycle adc (atLine3 m s) := by
  have hslot := timSlot_eq (beginCycle s) (by rw [beginCycle_env, hevents]; rfl)
  have hcount : (beginCycle s).env.timEvents.queued.getD 0 0 = m := by
    rw [beginCycle_env, hevents]
    rfl
  rw [updCycle, hslot, hcount, beginCycle_tim, eventTim_iterate_uif hm]
  rfl

theorem updCycle_of_no_event (adc : Triple U32) {s : State} {n m : ℕ} (hevents : s.env.timEvents = eventsAt (n + 1) m) :
    updCycle adc s = directCycle adc (timRead (beginCycle s)) := by
  have hslot := timSlot_eq (beginCycle s) (by rw [beginCycle_env, hevents]; rfl)
  have hcount : (beginCycle s).env.timEvents.queued.getD 0 0 = 0 := by
    rw [beginCycle_env, hevents]
    rfl
  rw [updCycle, hslot, hcount]
  rfl

theorem directCycle_of_missed (adc : Triple U32) {s : State} (h : s.tim.dir = s.run.countingDown) :
    directCycle adc s = recorded 0x800#32 s := by
  rw [directCycle, if_pos h, raise_eq_recorded]
  rfl

theorem directCycle_of_sense (adc : Triple U32) {s : State} (hd : s.tim.dir = false) (hc : s.run.countingDown = true) :
    directCycle adc s = runRole .sense adc (setDirection false s) := by
  rw [directCycle, hd, hc]
  rfl

theorem directCycle_of_commit (adc : Triple U32) {s : State} (hd : s.tim.dir = true)
    (hc : s.run.countingDown = false) : directCycle adc s = runRole .commit adc (setDirection true s) := by
  rw [directCycle, hd, hc]
  rfl

/-! Events before line 3 of a `SENSE` cycle. -/

/-- The state with the `m` events before the cycle and none inside it. -/
def eventsBefore (m : ℕ) (s : State) : State :=
  { s with tim := eventTim^[m] s.tim, env := { s.env with timEvents := held 0 } }

theorem updCycle_sense_of_events (adc : Triple U32) {s : State} {m : ℕ} (hm : 1 ≤ m)
    (hevents : s.env.timEvents = eventsAt 0 m) (hd : (eventTim^[m] s.tim).dir = false)
    (hc : s.run.countingDown = true) :
    updCycle adc s = runRole .sense adc (setDirection false (atLine3 m s)) := by
  rw [updCycle_of_events adc hm hevents]
  exact directCycle_of_sense adc (s := atLine3 m s) hd hc

/-- Lines 1 and 2 consume an event that came before the cycle. -/
theorem updCycle_eventsBefore (adc : Triple U32) {s : State} {m : ℕ} (hevents : s.env.timEvents = eventsAt 0 m)
    (hd : (eventTim^[m] s.tim).dir = false) (hc : s.run.countingDown = true) :
    updCycle adc (eventsBefore m s) = runRole .sense adc (withUif false (setDirection false (atLine3 m s))) := by
  have henv : (timRead (eventsBefore m s)).env = (timRead s).env := by
    rw [timRead_env, timRead_env, hevents]
    rfl
  have hstart : setDirection false (timRead (beginCycle (eventsBefore m s))) =
      withUif false (setDirection false (atLine3 m s)) := by
    rw [atLine3, ← henv]
    rfl
  rw [updCycle_sense adc (eventsBefore m s) rfl hd hc, hstart]
  rfl

/-- The cycle is the one with the events before it, but that the event stays pending. -/
theorem updCycle_eq_eventsBefore (adc : Triple U32) {s : State} {m : ℕ} (hm : 1 ≤ m)
    (hevents : s.env.timEvents = eventsAt 0 m) (hd : (eventTim^[m] s.tim).dir = false)
    (hc : s.run.countingDown = true) :
    updCycle adc s = withUif true (updCycle adc (eventsBefore m s)) := by
  have huif : (setDirection false (atLine3 m s)).tim.uif = true := by
    rw [setDirection_tim, atLine3, eventTim_iterate hm]
  rw [updCycle_sense_of_events adc hm hevents hd hc, updCycle_eventsBefore adc hevents hd hc,
    ← runRole_sense_withUif, withUif_withUif, withUif_eq_self huif]

/-- With no enable to follow, events leave a block safely off. -/
theorem safeOff_atLine3 {s : State} {m : ℕ} (hm : 1 ≤ m) (h : s.safeOff) : (atLine3 m s).safeOff := by
  obtain ⟨hmoe, haoe, hlaw, harm⟩ := h
  refine ⟨?_, ?_, hlaw, harm⟩
  · rw [atLine3, eventTim_iterate hm, hmoe, haoe, Bool.or_false]
  · rw [atLine3, eventTim_iterate hm, haoe]

/-- With no law attached, what the cycle latches and records. -/
theorem updCycle_sense_of_events_of_sound (adc : Triple U32) {s : State} {m : ℕ} (hs : s.sound) (hm : 1 ≤ m)
    (hevents : s.env.timEvents = eventsAt 0 m) (hd : (eventTim^[m] s.tim).dir = false)
    (hc : s.run.countingDown = true) (hlaw : s.run.law = .none) :
    ∃ t : State, updCycle adc s = t ∧
      t = { s with lat := t.lat, run := t.run, tim := eventTim^[m] s.tim, env := t.env } ∧
      t.lat = senseLatches (currents s.par adc) s ∧
      t.run =
        { s.run with
          ts := s.run.ts + s.par.tUpdTicks
          countingDown := false
          error :=
            s.run.error ||| bitIf (anySaturated s.par adc) 0x80#32 ||| bitIf (leaks t) 0x100#32 |||
              bitIf (overCurrent t) 0x200#32 } := by
  obtain ⟨t, hrun, hlat, hruntime, ht⟩ := runRole_sense_of_safeOff adc (s := setDirection false (atLine3 m s))
    (safeOff_atLine3 hm (safeOff_of_sound s hs hlaw))
  have hlim : limit (supRead (setDirection false (atLine3 m s))) = limit (supRead (timRead s)) :=
    limit_congr rfl rfl rfl
  refine ⟨t, ?_, ht, ?_, hruntime⟩
  · rw [updCycle_sense_of_events adc hm hevents hd hc, hrun]
  · rw [hlat, hlim]
    rfl

/-! Events before line 3 of a `COMMIT` cycle, or in its fallback. -/

/-- The fallback finds the event, whichever of the places it fell at. -/
theorem updCycle_commit_of_events (adc : Triple U32) {s : State} {m : ℕ} {act : Triple U16} (hm : 1 ≤ m)
    (hc : s.run.countingDown = false) (hb : s.env.brakeOk = held true)
    (hplace : (s.env.timEvents = eventsAt 0 m ∧ (eventTim^[m] s.tim).dir = true ∧ act = s.tim.ccrSh) ∨
      ∃ k : ℕ, k ≤ 5 ∧ s.env.timEvents = eventsAt (1 + k) m ∧ s.tim.dir = true ∧
        act = torn k (halves s.par) s.tim.ccrSh) :
    ∃ t : State, updCycle adc s = t ∧
      t.tim =
        { ccrSh := halves s.par, ccrAct := act, aoe := false, moe := false, uif := true,
          dir := (eventTim^[m] s.tim).dir } ∧
      t.run =
        { s.run with
          ts := s.run.ts + s.par.tUpdTicks
          countingDown := true
          law := .none
          isArmed := false
          error :=
            s.run.error ||| 0x40#32 ||| bitIf (anySaturated s.par adc) 0x80#32 ||| bitIf (busTrips t) 0x400#32 } ∧
      t = { s with
            tim := t.tim
            run := t.run
            env := t.env
            dcf := filtered (currents s.par adc) s
            lat := { s.lat with iBus := F32.zero }
            out := s.out ++ brk s } := by
  rcases hplace with ⟨hevents, hd, rfl⟩ | ⟨k, hk, hevents, hd, rfl⟩
  · have hread : (timRead s).env.timEvents = held 0 := by
      rw [timRead_env, hevents]
      rfl
    have hT : floating (arbiter (halves s.par) false (timRead s).env.timEvents.queued (eventTim^[m] s.tim)) =
        { ccrSh := halves s.par, ccrAct := s.tim.ccrSh, aoe := false, moe := false, uif := true,
          dir := (eventTim^[m] s.tim).dir } := by
      rw [hread, arbiter_idle _ _ (fun i _ => by cases i <;> rfl), eventTim_iterate hm]
      rfl
    rw [updCycle_of_events adc hm hevents, directCycle_of_commit adc (s := atLine3 m s) hd hc]
    exact runRole_commit_of_pending adc (s := setDirection true (atLine3 m s)) hb
      (congrArg Wire.held hread) hT rfl
  · rw [Nat.add_comm] at hevents
    have hread : (timRead s).env.timEvents = eventsAt k m := by
      rw [timRead_env, hevents]
      rfl
    have hT : floating (arbiter (halves s.par) false (timRead s).env.timEvents.queued { s.tim with uif := false }) =
        { ccrSh := halves s.par, ccrAct := torn k (halves s.par) s.tim.ccrSh, aoe := false, moe := false, uif := true,
          dir := (eventTim^[m] s.tim).dir } := by
      rw [hread, eventTim_iterate_dir]
      exact floating_arbiter_late (halves s.par) false hk hm _
    rw [updCycle_of_no_event adc hevents, directCycle_of_commit adc (s := timRead (beginCycle s)) hd hc]
    exact runRole_commit_of_pending adc (s := setDirection true (timRead (beginCycle s))) hb
      (congrArg Wire.held hread) hT rfl

/-- Settles O56: at line 3 the direction read says which cycle it is, or that it is missed; a fallback that ends with the
event pending disarms, and so does the committing call. -/
theorem updEventInside : Obligations.UpdEventInside := by
  refine ⟨fun s a b c m hm hevents hd => ?_, fun s a b c m hm hevents hd hc => ?_,
    fun s a b c m hs hm hevents hd hc hlaw => ?_, fun s a b c m act hm hc hb hplace => ?_,
    fun s a b c m k v q x hm hk hevents hd hc hb hlaw harm hv hq hask hx hsat => ?_⟩
  · have hmissed := (updCycle_of_events ⟨a, b, c⟩ hm hevents).trans (directCycle_of_missed ⟨a, b, c⟩ hd)
    exact congrArg Host.Outcome.next hmissed
  · exact congrArg Host.Outcome.next (updCycle_eq_eventsBefore ⟨a, b, c⟩ hm hevents hd hc)
  · obtain ⟨t, hcycle, ht⟩ := updCycle_sense_of_events_of_sound ⟨a, b, c⟩ hs hm hevents hd hc hlaw
    exact ⟨t, congrArg Host.Outcome.next hcycle, ht⟩
  · obtain ⟨t, hcycle, ht⟩ := updCycle_commit_of_events ⟨a, b, c⟩ hm hc hb hplace
    exact ⟨t, congrArg Host.Outcome.next hcycle, ht⟩
  · replace hevents : s.env.timEvents = eventsAt (k + 6 + 1) m := by rw [hevents, Nat.add_comm]
    have hread : (timRead s).env.timEvents = eventsAt (k + 6) m := by
      rw [timRead_env, hevents]
      rfl
    obtain ⟨t, hcycle, ht⟩ := runRole_commit_of_late ⟨a, b, c⟩ (s := setDirection true (timRead (beginCycle s))) hm hk
      hread hb rfl hlaw harm hv hq hask hx hsat
    rw [eventTim_iterate_dir]
    have hupd := (updCycle_of_no_event ⟨a, b, c⟩ hevents).trans
      (directCycle_of_commit ⟨a, b, c⟩ (s := timRead (beginCycle s)) hd hc)
    exact ⟨t, congrArg Host.Outcome.next (hupd.trans hcycle), ht⟩

end Sys2Proof.Proofs

/-!
Words (spec/30_encoding R94 to R97, R103): the fields of the three formats, what a command word decodes to, and the
commands that are rejected.
-/

namespace Sys2Proof.Proofs

open Sys2Proof.Machine Sys2Proof.Claims

/-! Event words (R94). -/

theorem decodeUpd_append (a b c : U32) : decodeUpd (a ++ b ++ c) = .upd a b c := by
  have ha : (a ++ b ++ c).extractLsb' 64 32 = a := by
    rw [BitVec.extractLsb'_append_eq_of_le (by norm_num), BitVec.extractLsb'_append_eq_left]
  have hb : (a ++ b ++ c).extractLsb' 32 32 = b := by
    rw [BitVec.extractLsb'_append_eq_of_le (by norm_num), BitVec.extractLsb'_append_eq_right]
  have hc : (a ++ b ++ c).extractLsb' 0 32 = c := BitVec.extractLsb'_append_eq_right
  rw [decodeUpd, ha, hb, hc]

theorem encode_decodeUpd (w : BitVec 96) : encode (decodeUpd w) = .upd96 w := by
  have hab : w.extractLsb' 64 32 ++ w.extractLsb' 32 32 = w.extractLsb' 32 64 :=
    BitVec.extractLsb'_append_extractLsb'_eq_extractLsb' rfl
  have habc : w.extractLsb' 32 64 ++ w.extractLsb' 0 32 = w.extractLsb' 0 96 :=
    BitVec.extractLsb'_append_extractLsb'_eq_extractLsb' rfl
  rw [decodeUpd, encode, hab, habc, BitVec.extractLsb'_eq_self]

/-! Micro-operation codes (R97). -/

/-- A code that decodes is the code of one row of the table. -/
theorem encode_of_decodeUop {c : U8} {i : Instr} (h : decodeUop c = .ok i) : encode i = .uop8 c := by
  unfold decodeUop at h
  split at h <;> cases h <;> rfl

/-! Command words (R95, R96). -/

/-- A word with the fields of `i`'s own agrees with it in every bit `i` reads. -/
theorem sameWord_of_encode {w : BitVec 48} {i : Instr} {sel : U8} {data : U32}
    (h : encode i = cmdWord (cmdOp w) sel data) (hsel : usesSel i = true → sel = cmdSel w)
    (hdata : usesData i = true → data = cmdData w) : sameWord (.cmd48 w) i :=
  ⟨_, h, cmdOp_append _ _ _, fun hu => (cmdSel_append _ _ _).trans (hsel hu),
    fun hu => (cmdData_append _ _ _).trans (hdata hu)⟩

/-- A command word is that of a listed row, or reserved. -/
theorem decodeCmd_cases (w : BitVec 48) :
    (cmdOp w ∈ listedOps ∧ ∃ i, decodeCmd w = .ok i ∧ sameWord (.cmd48 w) i) ∨
    (cmdOp w ∉ listedOps ∧ decodeCmd w = .error (.reservedOp (cmdOp w))) := by
  unfold decodeCmd
  split
  case h_17 => exact .inr ⟨by simp_all [listedOps], rfl⟩
  all_goals
    next hop =>
      have hlisted : cmdOp w ∈ listedOps := by rw [hop]; decide
      refine .inl ⟨hlisted, _, rfl, sameWord_of_encode (by rw [hop]; rfl) ?_ ?_⟩ <;> simp [usesSel, usesData]

/-- Settles O5: each word is a literal, and the decoder computes. -/
theorem wordsDecodeAsWritten : Obligations.WordsDecodeAsWritten := by
  refine ⟨?_, ?_, ?_, ?_, ?_, ?_, ?_⟩ <;> decide

/-! Round trip. -/

theorem decode_encode (i : Instr) : decode (encode i) = .ok i := by
  cases i with
  | upd a b c => exact congrArg Except.ok (decodeUpd_append a b c)
  | arm sel | disarmErr sel | regRd sel =>
    simp [encode, cmdWord, decode, decodeCmd, cmdOp_append, cmdSel_append]
  | cfgWr sel data => simp [encode, cmdWord, decode, decodeCmd, cmdOp_append, cmdSel_append, cmdData_append]
  | _ => rfl

theorem sameWord_of_decode {w : PortWord} {i : Instr} (h : decode w = .ok i) : sameWord w i := by
  cases w with
  | upd96 w =>
    cases h
    exact encode_decodeUpd w
  | uop8 c => exact encode_of_decodeUop h
  | cmd48 w =>
    change decodeCmd w = .ok i at h
    rcases decodeCmd_cases w with ⟨-, j, hj, hsame⟩ | ⟨-, herr⟩
    · obtain rfl : j = i := Except.ok.inj (hj.symm.trans h)
      exact hsame
    · cases herr.symm.trans h

/-- Settles O1: the encoder's word has the row's code and the operands in their fields, which the decoder reads. -/
theorem decodeEncodeAgree : Obligations.DecodeEncodeAgree := ⟨decode_encode, fun _ _ => sameWord_of_decode⟩

/-! Rejected commands (R103). -/

theorem exists_decode_cmd48_iff (w : BitVec 48) : (∃ i, decode (.cmd48 w) = .ok i) ↔ cmdOp w ∈ listedOps := by
  change (∃ i, decodeCmd w = .ok i) ↔ _
  rcases decodeCmd_cases w with ⟨hop, i, hi, -⟩ | ⟨hop, herr⟩
  · exact iff_of_true ⟨i, hi⟩ hop
  · exact iff_of_false (by rw [herr]; rintro ⟨i, ⟨⟩⟩) hop

/-- `ARM` takes the laws 1 to 3 (R96). -/
theorem lawOfSel_eq_none {sel : U8} (h : sel.toNat < 1 ∨ 3 < sel.toNat) : lawOfSel sel = none := by
  unfold lawOfSel
  split
  case h_4 => rfl
  all_goals exact absurd h (by decide)

/-- `DISARM_ERR` takes the kinds 0 to 12 (R96). -/
theorem kindOfSel_eq_none {sel : U8} (h : 12 < sel.toNat) : kindOfSel sel = none := by
  unfold kindOfSel
  split
  case h_14 => rfl
  all_goals exact absurd h (by decide)

/-- `REG_RD` takes the registers 0x00 to 0x2F (R96). -/
theorem regRead_eq_none {sel : U8} (h : 0x2F < sel.toNat) (s : State) : regRead sel s = none := by
  unfold regRead
  rw [dif_neg (by omega)]
  split
  case h_33 => rfl
  all_goals exact absurd h (by decide)

theorem armCmd_of_illegal {sel : U8} (h : sel.toNat < 1 ∨ 3 < sel.toNat) (s : State) :
    armCmd sel s = rejected 0x01#8 s := by
  rw [armCmd, lawOfSel_eq_none h]
  rfl

theorem disarmErrCmd_of_illegal {sel : U8} (h : 12 < sel.toNat) (s : State) :
    disarmErrCmd sel s = rejected 0x03#8 s := by
  rw [disarmErrCmd, kindOfSel_eq_none h]
  rfl

theorem regRd_of_illegal {sel : U8} (h : 0x2F < sel.toNat) (s : State) : regRd sel s = rejected 0x21#8 s := by
  rw [regRd, regRead_eq_none h]
  rfl

theorem cfgWr_of_illegal {sel : U8} {s : State}
    (h : 0x0F < sel.toNat ∨ s.cal.state ≠ .idle ∨ s.run.isArmed = true) (data : U32) :
    cfgWr sel data s = rejected 0x20#8 s := by
  have hrefused : cfgRefused sel s = true := by simpa [cfgRefused, or_assoc] using h
  exact if_pos hrefused

theorem whenIdle_of_busy (op : U8) (f : State → State) {s : State} (h : s.cal.state ≠ .idle) :
    whenIdle op f s = rejected op s := if_neg h

/-- A command word whose operation rejects it. -/
theorem runArrival_eq_rejected {w : BitVec 48} {op : U8} {s : State} (i : Instr) (hop : cmdOp w = op)
    (hi : decodeCmd w = .ok i) (ht : nextState i s = rejected op s) :
    runArrival (.cmd48 w) s = .next (rejected (cmdOp w) s) := by
  rw [runArrival, arrivalWord, decode, hi, hop, ← ht]
  exact exec_eq_nextState i s

/-- An illegal command word that runs is rejected, whatever the ground (R103). -/
theorem runArrival_of_illegal {w : BitVec 48} {s : State} (h : illegal w s) :
    runArrival (.cmd48 w) s = .next (rejected (cmdOp w) s) := by
  have hcfg : cmdOp w = 0x20#8 → (0x0F < (cmdSel w).toNat ∨ s.cal.state ≠ .idle ∨ s.run.isArmed = true) →
      runArrival (.cmd48 w) s = .next (rejected (cmdOp w) s) := fun hop hground =>
    runArrival_eq_rejected (.cfgWr (cmdSel w) (cmdData w)) hop (by simp only [decodeCmd, hop])
      (cfgWr_of_illegal hground _)
  rcases h with hop | ⟨hop, hsel⟩ | ⟨hop, hsel⟩ | ⟨hop, hsel⟩ | ⟨hop, hsel⟩ | ⟨hop, hbusy⟩ | ⟨hop, harmed⟩
  · obtain ⟨hlisted, -⟩ | ⟨-, herr⟩ := decodeCmd_cases w
    · exact absurd hlisted hop
    · rw [runArrival, arrivalWord, decode, herr]
      rfl
  · exact runArrival_eq_rejected (.arm (cmdSel w)) hop (by simp only [decodeCmd, hop]) (armCmd_of_illegal hsel s)
  · exact runArrival_eq_rejected (.disarmErr (cmdSel w)) hop (by simp only [decodeCmd, hop])
      (disarmErrCmd_of_illegal hsel s)
  · exact hcfg hop (.inl hsel)
  · exact runArrival_eq_rejected (.regRd (cmdSel w)) hop (by simp only [decodeCmd, hop]) (regRd_of_illegal hsel s)
  · simp only [List.mem_cons, List.not_mem_nil, or_false] at hop
    rcases hop with hop | hop | hop | hop | hop
    · exact runArrival_eq_rejected .updGains hop (by simp only [decodeCmd, hop]) (whenIdle_of_busy _ _ hbusy)
    · exact runArrival_eq_rejected .calRun hop (by simp only [decodeCmd, hop]) (whenIdle_of_busy _ _ hbusy)
    · exact runArrival_eq_rejected .calR hop (by simp only [decodeCmd, hop])
        (whenIdle_of_busy _ (fun t => startR (setSeq false t)) hbusy)
    · exact runArrival_eq_rejected .calL hop (by simp only [decodeCmd, hop])
        (whenIdle_of_busy _ (fun t => startL (setSeq false t)) hbusy)
    · exact hcfg hop (.inr (.inl hbusy))
  · exact hcfg hop (.inr (.inr harmed))

/-- Settles O2: the step takes the word, and taking it changes none of the fields that make it illegal. -/
theorem illegalCommandRejected : Obligations.IllegalCommandRejected := by
  refine ⟨exists_decode_cmd48_iff, fun s w rest hagenda hwait hillegal => ?_⟩
  have hpopped : illegal w (popped (.cmd48 w) rest s) := hillegal
  rw [step_of_arrival hagenda hwait, enabled_popped rest (fun _ h => by cases h), if_pos rfl,
    runArrival_of_illegal hpopped]

end Sys2Proof.Proofs

/-!
The compare code of a duty (spec/30_encoding R100): integers and halves are data, a value that is a datum rounds to
itself, and rounding does not pass a datum.
-/

namespace Sys2Proof.Proofs

open Sys2Proof.Machine Sys2Proof.Claims

/-! Rounding and data. -/

/-- A value below `2^24` with few binary places is a datum. -/
theorem exists_value_eq (k j : ℕ) (hk : k < 2 ^ 24) (hj : j ≤ 126) :
    ∃ z : F32, z.isFinite = true ∧ value z = k / 2 ^ j := by
  rcases Nat.eq_zero_or_pos k with rfl | hpos
  · exact ⟨F32.zero, rfl, by norm_num [F32.zero, value_finite, F32.magUnits]⟩
  obtain ⟨p, hp⟩ : ∃ p, k.log2 + p = 23 := Nat.exists_eq_add_of_le
    (Nat.le_of_lt_succ ((Nat.log2_lt hpos.ne').mpr hk)) |>.imp fun _ h => h.symm
  have hlow : 2 ^ 23 ≤ k * 2 ^ p := by
    rw [← hp, pow_add]
    exact Nat.mul_le_mul_right _ (Nat.log2_self_le hpos.ne')
  have hhigh : k * 2 ^ p ≤ 2 ^ 24 := by
    rw [show 24 = k.log2 + 1 + p by omega, pow_add]
    exact Nat.mul_le_mul_right _ Nat.lt_log2_self.le
  have hsteps : k * 2 ^ p * 2 ^ (126 - j + k.log2) = k * 2 ^ (149 - j) := by
    rw [mul_assoc, ← pow_add, show p + (126 - j + k.log2) = 149 - j by omega]
  have hrange : k * 2 ^ (149 - j) < 2 ^ 149 * 2 ^ 128 :=
    calc k * 2 ^ (149 - j) ≤ 2 ^ 24 * 2 ^ 149 := Nat.mul_le_mul hk.le (Nat.pow_le_pow_right (by norm_num) (by omega))
      _ < 2 ^ 149 * 2 ^ 128 := by norm_num
  obtain ⟨e, f, hmag, -⟩ := exists_magUnits_eq _ _ hhigh (.inr hlow) (hsteps ▸ hrange)
  refine ⟨.finite false e f, rfl, ?_⟩
  rw [value_finite, hmag, hsteps, sgn_false, one_mul, div_eq_div_iff (by positivity) (by positivity)]
  push_cast
  rw [mul_assoc, ← pow_add, show 149 - j + j = 149 by omega]

theorem isFinite_of_roundsTo {q : ℚ} {r : F32} (h : roundsTo q r) (hq : |q| < 2 ^ 128 - 2 ^ 103) :
    r.isFinite = true := by
  cases r with
  | finite n e f => rfl
  | inf n => exact absurd h.1 (not_le.mpr hq)
  | nan n p => exact h.elim

theorem nearest_of_roundsTo {q : ℚ} {r z : F32} (h : roundsTo q r) (hr : r.isFinite = true) (hz : z.isFinite = true) :
    |q - value r| ≤ |q - value z| := by
  obtain ⟨n, e, f, rfl⟩ := exists_of_isFinite hr
  obtain ⟨-, hnear, -⟩ := h
  exact hnear z hz

/-- The value of a datum rounds to itself. -/
theorem value_of_roundsTo_value {r z : F32} (h : roundsTo (value z) r) (hr : r.isFinite = true)
    (hz : z.isFinite = true) : value r = value z := by
  have hnear := nearest_of_roundsTo h hr hz
  rw [sub_self, abs_zero, abs_nonpos_iff, sub_eq_zero] at hnear
  exact hnear.symm

/-- Rounding does not pass a datum from below. -/
theorem value_le_of_roundsTo {q : ℚ} {r z : F32} (h : roundsTo q r) (hr : r.isFinite = true) (hz : z.isFinite = true)
    (hq : q ≤ value z) : value r ≤ value z := by
  have hnear := nearest_of_roundsTo h hr hz
  rw [abs_of_nonpos (sub_nonpos.mpr hq)] at hnear
  linarith [neg_abs_le (q - value r)]

/-- Rounding does not pass a datum from above. -/
theorem le_value_of_roundsTo {q : ℚ} {r z : F32} (h : roundsTo q r) (hr : r.isFinite = true) (hz : z.isFinite = true)
    (hq : value z ≤ q) : value z ≤ value r := by
  have hnear := nearest_of_roundsTo h hr hz
  rw [abs_of_nonneg (sub_nonneg.mpr hq)] at hnear
  linarith [le_abs_self (q - value r)]

/-! Truncation (R17). -/

/-- `floor_u16` is the floor inside its domain. -/
theorem floorU16_eq_floor {x : F32} (hx : x.isFinite = true) (h0 : 0 ≤ value x) (h1 : value x < 2 ^ 16) :
    (x.floorU16.toNat : ℤ) = ⌊value x⌋ := by
  obtain ⟨n, e, f, rfl⟩ := exists_of_isFinite hx
  rw [value_finite] at h0 h1 ⊢
  cases n with
  | true =>
    have hmag : (F32.magUnits e f : ℚ) = 0 := by
      have hpos : (0 : ℚ) ≤ F32.magUnits e f := Nat.cast_nonneg _
      rw [sgn_true, neg_one_mul, le_div_iff₀ (by positivity)] at h0
      linarith
    simp [F32.floorU16, hmag]
  | false =>
    rw [sgn_false, one_mul] at h1 ⊢
    have hfloor : ⌊(F32.magUnits e f : ℚ) / 2 ^ 149⌋ = ((F32.magUnits e f / 2 ^ 149 : ℕ) : ℤ) := by
      have h := Rat.floor_intCast_div_natCast (F32.magUnits e f : ℤ) (2 ^ 149)
      push_cast at h ⊢
      exact h
    have hlt : F32.magUnits e f / 2 ^ 149 < 2 ^ 16 := by
      rw [Nat.div_lt_iff_lt_mul (by positivity)]
      rw [div_lt_iff₀ (by positivity)] at h1
      exact_mod_cast h1
    rw [hfloor, F32.floorU16, BitVec.toNat_ofNat, Nat.mod_eq_of_lt hlt]

/-! The product of a duty and `Num(PWM_FULL)` (R100). -/

theorem value_zero : value F32.zero = 0 := by norm_num [F32.zero, value_finite, F32.magUnits]
theorem value_one : value F32.one = 1 := by norm_num [F32.one, value_finite, F32.magUnits]
theorem value_half : value F32.half = 1 / 2 := by norm_num [F32.half, value_finite, F32.magUnits]

/-- `Num(k)` is exact for a 16-bit `k` (R16). -/
theorem ofInt_natCast_exact {k : ℕ} (hk : k < 2 ^ 16) :
    (F32.ofInt k).isFinite = true ∧ value (F32.ofInt k) = k := by
  have hkq : (k : ℚ) < 2 ^ 16 := by exact_mod_cast hk
  have hround : roundsTo (k : ℚ) (F32.ofInt k) := roundsTo_ofInt k
  have hfin : (F32.ofInt k).isFinite = true :=
    isFinite_of_roundsTo hround (by rw [abs_of_nonneg (Nat.cast_nonneg k)]; linarith)
  obtain ⟨z, hz, hval⟩ := exists_value_eq k 0 (hk.trans (by norm_num)) (by norm_num)
  rw [pow_zero, div_one] at hval
  refine ⟨hfin, ?_⟩
  rw [← hval] at hround ⊢
  exact value_of_roundsTo_value hround hfin hz

theorem isFinite_of_le_zero_one {d : F32} (h0 : F32.le F32.zero d = true) (h1 : F32.le d F32.one = true) :
    d.isFinite = true := by
  cases d with
  | finite n e f => rfl
  | inf n =>
    cases n
    · cases h1
    · cases h0
  | nan n p => cases h0

/-- A duty in `[0, 1]` times `Num(k)` is the exact product rounded, a datum in `[0, k]`. -/
theorem duty_mul_ofInt {d : F32} {k : ℕ} (hk : k < 2 ^ 16) (h0 : F32.le F32.zero d = true)
    (h1 : F32.le d F32.one = true) :
    roundsTo (value d * k) (d.mul (F32.ofInt k)) ∧ (d.mul (F32.ofInt k)).isFinite = true ∧
      0 ≤ value (d.mul (F32.ofInt k)) ∧ value (d.mul (F32.ofInt k)) ≤ k := by
  have hd := isFinite_of_le_zero_one h0 h1
  obtain ⟨hfin, hval⟩ := ofInt_natCast_exact hk
  rw [le_iff_value_le rfl hd, value_zero] at h0
  rw [le_iff_value_le hd rfl, value_one] at h1
  have hkq : (k : ℚ) < 2 ^ 16 := by exact_mod_cast hk
  have hq0 : 0 ≤ value d * k := mul_nonneg h0 (Nat.cast_nonneg k)
  have hq1 : value d * k ≤ k := mul_le_of_le_one_left (Nat.cast_nonneg k) h1
  have hround := roundsTo_mul hd hfin
  rw [hval] at hround
  have hprod := isFinite_of_roundsTo hround (by rw [abs_of_nonneg hq0]; linarith)
  refine ⟨hround, hprod, ?_, ?_⟩
  · rw [← value_zero]
    exact le_value_of_roundsTo hround hprod rfl (value_zero.trans_le hq0)
  · rw [← hval]
    exact value_le_of_roundsTo hround hprod hfin (hq1.trans_eq hval.symm)

/-- The code of a duty in `[0, 1]` is the floor of the product (R100). -/
theorem ccr_eq_floor (p : Params) {d : F32} (h0 : F32.le F32.zero d = true) (h1 : F32.le d F32.one = true) :
    ((ccr p d).toNat : ℤ) = ⌊value (d.mul (F32.ofInt p.pwmFull.toNat))⌋ := by
  have hk := p.pwmFull.isLt
  have hkq : (p.pwmFull.toNat : ℚ) < 2 ^ 16 := by exact_mod_cast hk
  obtain ⟨-, hfin, hlow, hhigh⟩ := duty_mul_ofInt hk h0 h1
  exact floorU16_eq_floor hfin hlow (hhigh.trans_lt hkq)

/-- Where the exact product is a number of halves the product is exact, and so is its floor. -/
theorem ccr_toNat_of_halves (p : Params) {d : F32} (h0 : F32.le F32.zero d = true) (h1 : F32.le d F32.one = true)
    {m : ℕ} (hm : m < 2 ^ 24) (hd : value d * p.pwmFull.toNat = m / 2) : (ccr p d).toNat = m / 2 := by
  obtain ⟨hround, hfin, -, -⟩ := duty_mul_ofInt p.pwmFull.isLt h0 h1
  obtain ⟨z, hz, hval⟩ := exists_value_eq m 1 hm (by norm_num)
  rw [hd, ← pow_one 2, ← hval] at hround
  have hfloor := ccr_eq_floor p h0 h1
  rw [value_of_roundsTo_value hround hfin hz, hval, pow_one] at hfloor
  have hdiv := Rat.floor_intCast_div_natCast (m : ℤ) 2
  push_cast at hdiv
  omega

theorem dutyToCcr_eq_ccr (p : Params) {d : F32} (h0 : F32.le F32.zero d = true) (h1 : F32.le d F32.one = true) :
    dutyToCcr p d = ccr p d :=
  congrArg Triple.a (dutyCodes_eq p (d := ⟨d, d, d⟩) ⟨⟨h0, h1⟩, ⟨h0, h1⟩, ⟨h0, h1⟩⟩)

/-- Settles O40: the code is the floor of the product, which is exact for the duties 0, 1 and 0.5. -/
theorem dutyToCompareCode : Obligations.DutyToCompareCode := by
  refine ⟨fun s h0 h1 => ?_, fun s => ⟨_, rfl⟩⟩
  have hk := s.par.pwmFull.isLt
  refine ⟨ccr s.par s.opnd.duty, ?_, ccr_eq_floor s.par h0 h1, fun hd => ?_, fun hd => ?_, fun hd => ?_⟩
  · rw [← dutyToCcr_eq_ccr s.par h0 h1]
    rfl
  · have hval : value s.opnd.duty * s.par.pwmFull.toNat = (0 : ℕ) / 2 := by rw [hd, value_zero]; norm_num
    exact BitVec.eq_of_toNat_eq (ccr_toNat_of_halves s.par h0 h1 (by norm_num) hval)
  · have hval : value s.opnd.duty * s.par.pwmFull.toNat = (2 * s.par.pwmFull.toNat : ℕ) / 2 := by
      rw [hd, value_one]; push_cast; ring
    have hcode := ccr_toNat_of_halves s.par h0 h1 (by omega) hval
    exact BitVec.eq_of_toNat_eq (by omega)
  · have hval : value s.opnd.duty * s.par.pwmFull.toNat = (s.par.pwmFull.toNat : ℕ) / 2 := by
      rw [hd, value_half]; ring
    exact ccr_toNat_of_halves s.par h0 h1 (by omega) hval

end Sys2Proof.Proofs

/-!
Fault tests in a row (spec/40_update_cycle R135; spec/60_exceptions R305): each records its bit whether or not another
fired, and one that fired has disarmed the block.
-/

namespace Sys2Proof.Proofs

open Sys2Proof.Machine Sys2Proof.Claims

/-! What a row of tests leaves. -/

/-- The bits `m` recorded, and the block disarmed if `c`. -/
def disarmedIf (c : Prop) [Decidable c] (m : U32) (s : State) : State :=
  if c then recorded m s else withError (s.run.error ||| m) s

section

variable (c d : Prop) [Decidable c] [Decidable d] (m n : U32) (s : State)

theorem disarmedIf_of_pos (h : c) : disarmedIf c m s = recorded m s := if_pos h

@[simp] theorem disarmedIf_cfg : (disarmedIf c m s).cfg = s.cfg := by unfold disarmedIf; split <;> rfl
@[simp] theorem disarmedIf_lat : (disarmedIf c m s).lat = s.lat := by unfold disarmedIf; split <;> rfl
@[simp] theorem disarmedIf_env : (disarmedIf c m s).env = s.env := by unfold disarmedIf; split <;> rfl

theorem disarmedIf_congr {c d : Prop} [Decidable c] [Decidable d] (h : c ↔ d) (m : U32) (s : State) :
    disarmedIf c m s = disarmedIf d m s := by
  simp only [disarmedIf, h]

/-- No test fired. -/
theorem disarmedIf_of_neg (h : ¬ c) : disarmedIf c 0#32 s = s := by
  rw [disarmedIf, if_neg h, BitVec.or_zero]
  rfl

/-- Fault entry is the bits, then a disarm (spec/41_arm_commit R160). -/
theorem recorded_eq_disarm : recorded m s = disarm (withError (s.run.error ||| m) s) := by
  have hout : (recorded m s).out = (disarm (withError (s.run.error ||| m) s)).out := (disarm_out_eq _).symm
  exact state_eq_of_fields _ _ rfl rfl rfl rfl rfl rfl rfl rfl rfl rfl hout rfl rfl rfl rfl rfl

/-- Nothing is left to disarm of a block that is safely off (spec/41_arm_commit R158). -/
theorem recorded_of_safeOff (h : s.safeOff) : recorded m s = withError (s.run.error ||| m) s := by
  rw [recorded_eq_disarm]
  exact disarm_of_safeOff _ h

theorem disarmedIf_of_safeOff (h : s.safeOff) : disarmedIf c m s = recorded m s := by
  rw [disarmedIf, recorded_of_safeOff m s h, ite_self]

theorem recorded_recorded : recorded n (recorded m s) = recorded (m ||| n) s := by
  rw [recorded_of_safeOff n (recorded m s) ⟨rfl, rfl, rfl, rfl⟩]
  apply state_eq_of_fields <;> simp [recorded, withError, BitVec.or_assoc]

/-- One row after another. -/
theorem disarmedIf_disarmedIf :
    disarmedIf d n (disarmedIf c m s) = disarmedIf (c ∨ d) (m ||| n) s := by
  have hmask : s.run.error ||| m ||| n = s.run.error ||| (m ||| n) := BitVec.or_assoc _ _ _
  by_cases hc : c
  · have hoff : (recorded m s).safeOff := ⟨rfl, rfl, rfl, rfl⟩
    rw [disarmedIf_of_pos c m s hc, disarmedIf_of_safeOff d n _ hoff, recorded_recorded, disarmedIf, if_pos (.inl hc)]
  · by_cases hd : d
    · rw [disarmedIf_of_pos d n _ hd, disarmedIf, if_neg hc, disarmedIf_of_pos _ _ _ (.inr hd), recorded, recorded,
        ← hmask]
      rfl
    · rw [disarmedIf, if_neg hd, disarmedIf, if_neg hc, disarmedIf, if_neg (not_or.mpr ⟨hc, hd⟩), ← hmask]
      rfl

end

/-! The tests. -/

theorem raiseIf_eq_disarmedIf (b : Bool) (k : ErrorKind) (s : State) :
    raiseIf b k s = disarmedIf (b = true) (bitIf (b = true) (kindMask k)) s := by
  cases b
  · exact (disarmedIf_of_neg _ s Bool.false_ne_true).symm
  · exact raise_eq_recorded k s

/-- Three lanes, one bit (spec/42_acquisition_filter R182). -/
theorem sanFault_eq (adc : Triple U32) (s : State) :
    sanFault adc s = disarmedIf (anySaturated s.par adc) (bitIf (anySaturated s.par adc) 0x80#32) s := by
  have hmask : kindMask .currentSenseSaturation = 0x80#32 := rfl
  simp only [sanFault, saturates_eq, sensedA, sensedB, sensedC, raiseIf_eq_disarmedIf, disarmedIf_disarmedIf,
    anySaturated, bitIf_or, hmask, or_assoc, BitVec.or_assoc]

/-- The supervisor's disarm records no bit (spec/60_exceptions R318). -/
theorem superviseCheck_eq (s : State) : superviseCheck s = disarmedIf (supNow s = true) 0#32 (supRead s) := by
  unfold superviseCheck
  split
  · next h =>
    rw [disarmedIf_of_pos _ _ _ h, recorded_eq_disarm, BitVec.or_zero]
    rfl
  · next h => exact (disarmedIf_of_neg _ _ h).symm

theorem raiseMeas_eq (r : MeasResult) (s : State) :
    raiseMeas r s = disarmedIf (r ≠ .success) (answerBit r) s := by
  cases r with
  | success => exact (disarmedIf_of_neg _ s (fun h => h rfl)).symm
  | err k =>
    rw [disarmedIf_of_pos _ _ _ (by simp)]
    exact raise_eq_recorded k s

end Sys2Proof.Proofs

/-!
A cycle with no timer event inside it that is missed, or that is a `SENSE` cycle: what it latches, what disarms before
the law is fed, and the feeding (spec/40_update_cycle R121, R124, R128).
-/

namespace Sys2Proof.Proofs

open Sys2Proof.Machine Sys2Proof.Claims

/-! Lines 1 to 5. -/

/-- Line 5 passed with direction `d`, no event having fallen before line 3. -/
def directed (d : Bool) (s : State) : State := setDirection d (timRead (beginCycle s))

theorem updCycle_of_missed (adc : Triple U32) {s : State} (hq : s.quiet) (h : s.tim.dir = s.run.countingDown) :
    updCycle adc s = { recorded 0x800#32 (begun s) with env := (timRead s).env } := by
  rw [updCycle, timSlot_quiet (beginCycle s) hq]
  exact directCycle_of_missed adc (s := timRead (beginCycle s)) h

theorem updCycle_of_sense (adc : Triple U32) {s : State} (hq : s.quiet) (hd : s.tim.dir = false)
    (hc : s.run.countingDown = true) : updCycle adc s = runRole .sense adc (directed false s) := by
  rw [updCycle, timSlot_quiet (beginCycle s) hq]
  exact directCycle_of_sense adc (s := timRead (beginCycle s)) hd hc

theorem updCycle_of_commit (adc : Triple U32) {s : State} (hq : s.quiet) (hd : s.tim.dir = true)
    (hc : s.run.countingDown = false) : updCycle adc s = runRole .commit adc (directed true s) := by
  rw [updCycle, timSlot_quiet (beginCycle s) hq]
  exact directCycle_of_commit adc (s := timRead (beginCycle s)) hd hc

/-- Settles O50: the direction read is the one of the cycle before. -/
theorem updMissed : Obligations.UpdMissed := fun _ a b c hq h =>
  congrArg Host.Outcome.next (updCycle_of_missed ⟨a, b, c⟩ hq h)

/-! The inputs a limit evaluation reads. -/

/-- A constant bus voltage stays so, and the external law's answers are not read (spec/44_limits R251). -/
theorem evalLim_wires (s : State) :
    (evalLim s).env.extMeas = s.env.extMeas ∧ ∀ v, s.env.vbus = held v → (evalLim s).env.vbus = held v := by
  have hlims : ∀ (n i : ℕ) (t : State),
      (readLims n i t).env.extMeas = t.env.extMeas ∧ (readLims n i t).env.vbus = t.env.vbus := by
    intro n
    induction n with
    | zero => exact fun _ _ => ⟨rfl, rfl⟩
    | succ n ih => exact fun i t => ih (i + 1) (limRead i t)
  obtain ⟨hext, hvbus⟩ := hlims s.par.nLim 0 (baseLimRead s)
  refine ⟨hext.trans ?_, fun v hv => hvbus.trans ?_⟩
  · rw [baseLimRead]
    split <;> rfl
  · rw [baseLimRead]
    split
    · rw [vbusRead_env, hv]
      rfl
    · exact hv

/-! A row of fault tests among the other lines. -/

theorem latchCurrents_disarmedIf (i : Triple F32) (c : Prop) [Decidable c] (m : U32) (s : State) :
    latchCurrents i (disarmedIf c m s) = disarmedIf c m (latchCurrents i s) := by
  unfold disarmedIf
  rw [apply_ite (latchCurrents i)]
  rfl

theorem supRead_disarmedIf (c : Prop) [Decidable c] (m : U32) (s : State) :
    supRead (disarmedIf c m s) = disarmedIf c m (supRead s) := by
  unfold disarmedIf
  rw [apply_ite supRead]
  rfl

theorem leakCheck_disarmedIf (c : Prop) [Decidable c] (m : U32) (s : State) :
    leakCheck (disarmedIf c m s) = disarmedIf (c ∨ leaks s) (m ||| bitIf (leaks s) 0x100#32) s := by
  have htrips : leakTrips (disarmedIf c m s) = leakTrips s := by
    unfold disarmedIf
    split <;> rfl
  rw [leakCheck, raiseIf_eq_disarmedIf, disarmedIf_disarmedIf, htrips]
  rfl

theorem superviseCheck_disarmedIf (c : Prop) [Decidable c] (m : U32) (s : State) :
    superviseCheck (disarmedIf c m s) = disarmedIf (c ∨ supNow s = true) m (supRead s) := by
  have hnow : supNow (disarmedIf c m s) = supNow s := by
    unfold disarmedIf
    split <;> rfl
  rw [superviseCheck_eq, supRead_disarmedIf, disarmedIf_disarmedIf, hnow, BitVec.or_zero]

theorem magCheck_disarmedIf (c : Prop) [Decidable c] (m : U32) (s : State) :
    magCheck (disarmedIf c m s) = disarmedIf (c ∨ overCurrent s) (m ||| bitIf (overCurrent s) 0x200#32) s := by
  have htrips : magTrips (disarmedIf c m s) = magTrips s := by
    unfold disarmedIf
    split <;> rfl
  rw [magCheck, raiseIf_eq_disarmedIf, disarmedIf_disarmedIf, htrips]
  rfl

theorem evalLim_disarmedIf (c : Prop) [Decidable c] (m : U32) (s : State) :
    evalLim (disarmedIf c m s) = disarmedIf c m { evalLim s with env := (evalLim (disarmedIf c m s)).env } := by
  rw [evalLim_eq, evalLim_eq s]
  unfold disarmedIf
  split
  · rw [limit_congr (t := recorded m s) (s := s) rfl rfl rfl]
    rfl
  · rw [limit_congr (t := withError (s.run.error ||| m) s) (s := s) rfl rfl rfl]
    rfl

/-! `SENSE_BODY` up to the over-current comparator. -/

/-- What disarms before the law is fed, `x` holding the currents and the limit latched (R128). -/
abbrev senseStops (adc : Triple U32) (s x : State) : Prop :=
  anySaturated s.par adc ∨ supNow s = true ∨ leaks x ∨ overCurrent x

/-- The bits recorded. -/
abbrev senseBits (adc : Triple U32) (s x : State) : U32 :=
  bitIf (anySaturated s.par adc) 0x80#32 ||| bitIf (leaks x) 0x100#32 ||| bitIf (overCurrent x) 0x200#32

theorem latchCurrents_eq (i : Triple F32) (s : State) :
    latchCurrents i s =
      { s with lat := { s.lat with iMeas := Claims.corrected s i, iLeak := leakSum (Claims.corrected s i) } } := by
  rw [latchCurrents, corrected_eq]

theorem evalLim_latchCurrents (i : Triple F32) (s : State) (e : Env) :
    { evalLim (supRead (latchCurrents i s)) with env := e } = { senseLatched i s with env := e } := by
  rw [evalLim_eq, limit_congr (t := supRead (latchCurrents i s)) (s := supRead s) rfl rfl rfl]
  simp only [latchCurrents_eq]
  rfl

theorem leakTrips_latchCurrents (i : Triple F32) (s : State) :
    leakTrips (latchCurrents i s) = leakTrips (senseLatched i s) := by
  rw [latchCurrents_eq]
  rfl

/-- Lines 7 to 11 of the cycle as the latches, one row of fault tests, and the feeding of the law. -/
theorem runRole_sense_eq (adc : Triple U32) (s : State) :
    ∃ e : Env, e.extMeas = s.env.extMeas ∧ (∀ v, s.env.vbus = held v → e.vbus = held v) ∧
      runRole .sense adc s = feedLaw
        (disarmedIf (senseStops adc s (senseLatched (currents s.par adc) s))
          (senseBits adc s (senseLatched (currents s.par adc) s))
          { senseLatched (currents s.par adc) s with env := e }) := by
  obtain ⟨y, hy⟩ : ∃ y, y = latchCurrents (currents s.par adc) s := ⟨_, rfl⟩
  have hsup : superviseCheck (leakCheck (latchCurrents (currents s.par adc) (sanFault adc s))) =
      disarmedIf ((anySaturated s.par adc ∨ leaks y) ∨ supNow y = true)
        (bitIf (anySaturated s.par adc) 0x80#32 ||| bitIf (leaks y) 0x100#32) (supRead y) := by
    rw [sanFault_eq, latchCurrents_disarmedIf, ← hy, leakCheck_disarmedIf, superviseCheck_disarmedIf]
  obtain ⟨hext, hvbus⟩ := evalLim_wires
    (superviseCheck (leakCheck (latchCurrents (currents s.par adc) (sanFault adc s))))
  have henv : (supRead y).env = (supRead s).env := by rw [hy]; rfl
  obtain ⟨e, he⟩ : ∃ e, e =
      (evalLim (superviseCheck (leakCheck (latchCurrents (currents s.par adc) (sanFault adc s))))).env := ⟨_, rfl⟩
  rw [← he, hsup, disarmedIf_env, henv] at hext hvbus
  refine ⟨e, hext, hvbus, ?_⟩
  have hleak : F32.lt (opt 0x0A y) y.lat.iLeak.abs = leakTrips (senseLatched (currents s.par adc) s) := by
    rw [hy]
    exact leakTrips_latchCurrents _ s
  have hnow : supNow y = supNow s := by rw [hy]; rfl
  have hstops : ∀ p q r t : Prop, ((p ∨ q) ∨ r) ∨ t ↔ p ∨ r ∨ q ∨ t := by tauto
  rw [runRole, phaseCurrents_eq, senseBody, hsup, evalLim_disarmedIf, ← hsup, ← he, hy, evalLim_latchCurrents,
    ← hy, magCheck_disarmedIf, disarmedIf_congr (hstops _ _ _ _)]
  simp only [leaks, hleak, hnow]
  rfl

/-- The latches of a cycle with no event inside it, before anything disarms. -/
abbrev sensed (adc : Triple U32) (s : State) : State := senseLatched (currents s.par adc) (directed false s)

theorem updCycle_sense_eq (adc : Triple U32) {s : State} (hq : s.quiet) (hd : s.tim.dir = false)
    (hc : s.run.countingDown = true) :
    ∃ e : Env, e.extMeas = s.env.extMeas ∧ (∀ v, s.env.vbus = held v → e.vbus = held v) ∧
      updCycle adc s = feedLaw
        (disarmedIf (senseStops adc (timRead s) (sensed adc s)) (senseBits adc s (sensed adc s))
          { sensed adc s with env := e }) := by
  rw [updCycle_of_sense adc hq hd hc]
  exact runRole_sense_eq adc (directed false s)

theorem sensed_lat (adc : Triple U32) (s : State) : (sensed adc s).lat = senseLatches (currents s.par adc) s := by
  have hlim : limit (supRead (directed false s)) = limit (supRead (timRead s)) := limit_congr rfl rfl rfl
  rw [sensed, senseLatched, hlim]
  rfl

/-- What a cycle latches, and so what the comparators find, stands to its end. -/
theorem latched_of_fed {c : Prop} [Decidable c] {m : U32} {e : Env} {x t : State}
    (ht : t = feedLaw (disarmedIf c m { x with env := e })) :
    t.lat = x.lat ∧ (leaks t ↔ leaks x) ∧ (overCurrent t ↔ overCurrent x) := by
  have hlat : t.lat = x.lat := by rw [ht, feedLaw_lat, disarmedIf_lat]
  have hcfg : t.cfg = x.cfg := by rw [ht, feedLaw_cfg, disarmedIf_cfg]
  simp only [leaks, overCurrent, opt, hcfg, hlat, and_self]

/-! With no law attached, and with a law that a fault detaches. -/

/-- Settles O51: a sound block with no law is safely off, so that a fault is its bit. -/
theorem updSenseDisarmed : Obligations.UpdSenseDisarmed := by
  intro s a b c hs hq hd hc hlaw
  have hoff : (directed false s).safeOff := safeOff_of_sound s hs hlaw
  obtain ⟨t, hcycle, hlat, hrun, ht⟩ := runRole_sense_of_safeOff ⟨a, b, c⟩ hoff
  refine ⟨t, congrArg Host.Outcome.next ((updCycle_of_sense ⟨a, b, c⟩ hq hd hc).trans hcycle), ?_, hrun, ht⟩
  exact hlat.trans (sensed_lat ⟨a, b, c⟩ s)

/-- Settles O52: whichever test fired, no law is attached when it would be fed. -/
theorem updSenseLawNotFed : Obligations.UpdSenseLawNotFed := by
  intro s a b c hq hd hc _
  obtain ⟨e, -, -, hcycle⟩ := updCycle_sense_eq ⟨a, b, c⟩ hq hd hc
  obtain ⟨t, ht⟩ : ∃ t, t = updCycle ⟨a, b, c⟩ s := ⟨_, rfl⟩
  rw [hcycle] at ht
  obtain ⟨hlat, hleak, hover⟩ := latched_of_fed ht
  refine ⟨t, congrArg Host.Outcome.next (hcycle.trans ht.symm), hlat.trans (sensed_lat _ s), fun hstop => ?_⟩
  have hfired : senseStops ⟨a, b, c⟩ (timRead s) (sensed ⟨a, b, c⟩ s) := by rwa [hleak, hover] at hstop
  rw [disarmedIf_of_pos _ _ _ hfired, feedLaw_none _ rfl] at ht
  subst ht
  simp only [BitVec.or_assoc]
  rfl

/-! The law fed (spec/43_control_law R211). -/

/-- `LAW_MEAS.R` moves the resistance kernel alone (R221). -/
theorem measR_eq (v ia : F32) (s : State) : measR v ia s = { s with rk := measuredR v ia s } := by
  have hkernel : measuredR v ia s =
      { s.rk with
        i := ia
        v := integrate s ia
        mod := if overVmax (sampleR ia s) = true ∨ v.isNaN = true then s.rk.mod else (integrate s ia).div v } := rfl
  rw [measR, hkernel]
  split
  · next hover =>
    rw [if_pos (.inl hover)]
    rfl
  · next hover =>
    split
    · next hnan =>
      rw [if_pos (.inr hnan)]
      rfl
    · next hnan =>
      rw [if_neg (not_or.mpr ⟨hover, hnan⟩)]
      rfl

/-- `LAW_MEAS.L` moves the inductance kernel alone (R229). -/
theorem measL_eq (v ia : F32) (ts : U32) (s : State) :
    measL v ia ts s = { s with lk := measuredL v ia ts s } := by
  rw [measL, unusableL, measuredL]
  by_cases h : v.isNaN = true ∨ ia.isNaN = true
  · simp [h]
  · cases ha : s.lk.attached <;> simp [h, ha, sampleL, ripple, testSign]

theorem measLResult_eq (v ia : F32) : measLResult v ia = answerL v ia := by
  simp only [measLResult, answerL, unusableL, Bool.or_eq_true]

/-- What feeding does beside the answer (R221, R229, R236). -/
theorem lawMeas_eq (l : LawSel) (v : F32) (i : Triple F32) (ts : U32) (s : State) :
    lawMeas l v i ts s =
      { s with
        rk := if l = .rmeas then measuredR v i.a s else s.rk
        lk := if l = .lmeas then measuredL v i.a ts s else s.lk
        out := s.out ++ (if l = .ext then [.lawMeasExt v i ts] else [])
        env := (lawMeas l v i ts s).env } := by
  cases l with
  | none => simp [lawMeas]
  | rmeas => simp [lawMeas, measR_eq]
  | lmeas => simp [lawMeas, measL_eq]
  | ext => rfl

theorem lawMeasResult_eq (l : LawSel) {s : State} {q : MeasResult} (hq : s.env.extMeas = held q) (v : F32)
    (i : Triple F32) : lawMeasResult l v i s = fedAnswer l q v i.a s := by
  have hext : extMeasNow s = q := by rw [extMeasNow, hq]; rfl
  cases l with
  | none => rfl
  | rmeas => rfl
  | lmeas => exact measLResult_eq v i.a
  | ext => exact hext

/-- An answer rests on the parameters and the resistance kernel alone. -/
theorem fedAnswer_congr (l : LawSel) (q : MeasResult) (v ia : F32) {s t : State} (hpar : t.par = s.par)
    (hrk : t.rk = s.rk) : fedAnswer l q v ia t = fedAnswer l q v ia s := by
  cases l with
  | rmeas =>
    have hkernel : measuredR v ia t = measuredR v ia s := by rw [measuredR, measuredR, hpar, hrk]
    rw [fedAnswer, fedAnswer, answerR, answerR, hkernel, hrk]
  | none | lmeas | ext => rfl

/-- With a bus voltage `v` and an external answer `q`, the law is fed and answers `r` (R128, R211). -/
theorem feedLaw_of_held {s : State} {v : F32} {q r : MeasResult} (hlaw : s.run.law ≠ .none)
    (hv : s.env.vbus = held v) (hq : s.env.extMeas = held q) (hr : fedAnswer s.run.law q v s.lat.iMeas.a s = r) :
    ∃ e : Env, feedLaw s =
      disarmedIf (r ≠ .success) (answerBit r)
        { s with
          rk := if s.run.law = .rmeas then measuredR v s.lat.iMeas.a s else s.rk
          lk := if s.run.law = .lmeas then measuredL v s.lat.iMeas.a s.run.ts s else s.lk
          out := s.out ++ (if s.run.law = .ext then [.lawMeasExt v s.lat.iMeas s.run.ts] else [])
          env := e } := by
  have hvbus : vbusNow s = v := by rw [vbusNow, hv]; rfl
  have hanswer : lawMeasResult s.run.law v s.lat.iMeas (vbusRead s) = r := by
    rw [lawMeasResult_eq _ (s := vbusRead s) hq, ← hr]
    exact fedAnswer_congr _ _ _ _ rfl rfl
  refine ⟨(lawMeas s.run.law v s.lat.iMeas s.run.ts (vbusRead s)).env, ?_⟩
  rw [feedLaw, if_neg hlaw, hvbus, hanswer, raiseMeas_eq, lawMeas_eq]
  rfl

/-- The cycle in which no test fires: the state in which the law is fed. -/
theorem updCycle_sense_of_not_stopped (adc : Triple U32) {s t : State} (hq : s.quiet) (hd : s.tim.dir = false)
    (hc : s.run.countingDown = true) (hsup : s.env.supDisarm = held false) (hsat : ¬ anySaturated s.par adc)
    (ht : updCycle adc s = t) (hleak : ¬ leaks t) (hover : ¬ overCurrent t) :
    ∃ e : Env, e.extMeas = s.env.extMeas ∧ (∀ v, s.env.vbus = held v → e.vbus = held v) ∧
      t = feedLaw { sensed adc s with env := e } := by
  obtain ⟨e, hmeas, hvbus, hcycle⟩ := updCycle_sense_eq adc hq hd hc
  rw [ht] at hcycle
  obtain ⟨-, hleaks, hovers⟩ := latched_of_fed hcycle
  rw [hleaks] at hleak
  rw [hovers] at hover
  have hsilent : supNow (timRead s) = false := by
    rw [supNow, timRead_env, hsup]
    rfl
  have hstop : ¬ senseStops adc (timRead s) (sensed adc s) := by
    rintro (h | h | h | h)
    · exact hsat h
    · exact absurd (hsilent.symm.trans h) Bool.false_ne_true
    · exact hleak h
    · exact hover h
  have hbits : senseBits adc s (sensed adc s) = 0#32 := by
    rw [senseBits, bitIf, if_neg hsat, bitIf, if_neg hleak, bitIf, if_neg hover]
    rfl
  rw [hbits, disarmedIf_of_neg _ _ hstop] at hcycle
  exact ⟨e, hmeas, hvbus, hcycle⟩

/-- Settles O53: no test fired, so that the law is fed; its error is one more test. -/
theorem updSenseFeedsLaw : Obligations.UpdSenseFeedsLaw := by
  intro s t a b c v q hq hd hc hlaw harm hsup hv hext hsat ht hleak hover i ts r
  obtain ⟨e, hmeas, hvbus, hfeed⟩ := updCycle_sense_of_not_stopped ⟨a, b, c⟩ hq hd hc hsup hsat
    (Host.Outcome.next.inj ht) hleak hover
  have hr : fedAnswer s.run.law q v i.a { sensed ⟨a, b, c⟩ s with env := e } = r := fedAnswer_congr _ _ _ _ rfl rfl
  obtain ⟨e', hfed⟩ := feedLaw_of_held (s := { sensed ⟨a, b, c⟩ s with env := e }) hlaw (hvbus v hv)
    (hmeas.trans hext) hr
  have hlat := sensed_lat ⟨a, b, c⟩ s
  rw [hfeed, hfed, ← hlat]
  clear_value r
  cases r with
  | success =>
    have hrun : { s.run with isArmed := true } = s.run := by rw [← harm]
    rw [answerBit, disarmedIf_of_neg _ _ (not_not.mpr rfl), BitVec.or_zero, if_pos rfl, if_pos rfl, if_pos rfl,
      decide_eq_true rfl, List.append_nil]
    apply state_eq_of_fields
    case h2 => exact congrArg (fun r : Runtime => { r with ts := ts, countingDown := false }) hrun.symm
    all_goals rfl
  | err k =>
    have hbrk : brk s = [.brkRecomp] := if_pos harm
    have hne : MeasResult.err k ≠ .success := by simp
    rw [disarmedIf_of_pos _ _ _ hne, if_neg hne, if_neg hne, if_neg hne, decide_eq_false hne, ← hbrk]
    rfl

end Sys2Proof.Proofs

/-!
A `COMMIT` cycle with no timer event inside it (spec/40_update_cycle R126, R129 to R135): disarmed before the law is
asked, whether the interlock is satisfied or not; and each kind of answer of the law.
-/

namespace Sys2Proof.Proofs

open Sys2Proof.Machine Sys2Proof.Claims

/-! Disarmed before the law is asked. -/

/-- The state after line 7, `e` being the environment its boundaries and its interlock test leave. -/
abbrev withHalves (e : Env) (s : State) : State :=
  { s with tim := { s.tim with ccrSh := halves s.par }, env := e }

/-- The bits `m` recorded by line 9, no law is asked; what else applies is recorded (R129, R135). -/
theorem runRole_commit_of_recorded (adc : Triple U32) {s : State} {m : U32} {e : Env}
    (h : sanFault adc (fallback s) = recorded m (withHalves e s)) :
    ∃ t : State, runRole .commit adc s = t ∧
      t.run =
        { s.run with
          law := .none
          isArmed := false
          error := s.run.error ||| m ||| bitIf (busTrips t) 0x400#32 } ∧
      t = { s with
            run := t.run
            env := t.env
            dcf := filtered (currents s.par adc) s
            lat := { s.lat with iBus := F32.zero }
            tim := floating { s.tim with ccrSh := halves s.par }
            out := s.out ++ brk s } := by
  have hoff : (recorded m (withHalves e s)).safeOff := ⟨rfl, rfl, rfl, rfl⟩
  refine ⟨_, rfl, ?_⟩
  rw [runRole, phaseCurrents_eq, h, commitBody_of_safeOff _ hoff]
  exact ⟨rfl, rfl⟩

theorem quiet_directed {s : State} (d : Bool) (hq : s.quiet) : (directed d s).quiet := timRead_quiet s hq

/-- The interlock satisfied, a fallback writes the shadows alone (R126). -/
theorem fallback_of_quiet {s : State} (hq : s.quiet) (hb : s.env.brakeOk = held true) (huif : s.tim.uif = false) :
    fallback s = withHalves (pwmEnv s.env) s := by
  refine fallback_of_idle hb (by rw [hq]) (fun i _ => ?_) huif
  rw [hq]
  rfl

/-- The interlock open, a fallback disarms and still writes the shadows (spec/41_arm_commit R162, R165). -/
theorem fallback_of_open {s : State} (hq : s.quiet) (hb : s.env.brakeOk = held false) (huif : s.tim.uif = false) :
    fallback s = recorded 0x20#32 (withHalves (fallback s).env s) := by
  have hopen : brakeNow (timRead s) = false := by
    rw [brakeNow, timRead_env, hb]
    rfl
  have hlock : testInterlock (timRead s) = recorded 0x20#32 (brakeRead (timRead s)) := by
    rw [testInterlock, hopen]
    exact raise_eq_recorded _ _
  have hlate : ∀ x : State, x.tim.uif = false → testLate x = x := fun x hx => by rw [testLate, hx, raiseIf_false]
  have hlatch : ∀ x : State, setAoe true x = x := fun _ => rfl
  have hsteps := latchPwm_quiet (halves s.par) true s hq
  rw [hlock, hlatch, hlate _ (by exact huif)] at hsteps
  apply state_eq_of_fields
  case h13 => rfl
  case h2 | h10 | h11 =>
    rw [fallback, ← halves, hsteps]
    rfl
  all_goals simp [recorded]

/-- Settles O54: with nothing attached a fault is its bit, and a saturated phase disarms; either way no law is left to
be asked. -/
theorem updCommitLawNotAsked : Obligations.UpdCommitLawNotAsked := by
  intro s a b c hq hd hc hb hcause
  have hback := fallback_of_quiet (quiet_directed true hq) hb rfl
  have hsan : sanFault ⟨a, b, c⟩ (fallback (directed true s)) =
      recorded (bitIf (anySaturated s.par ⟨a, b, c⟩) 0x80#32)
        (withHalves (pwmEnv (directed true s).env) (directed true s)) := by
    rw [hback, sanFault_eq]
    rcases hcause with ⟨hs, hlaw⟩ | hsat
    · have hoff := safeOff_of_sound s hs hlaw
      exact disarmedIf_of_safeOff _ _ _ hoff
    · exact disarmedIf_of_pos _ _ _ hsat
  obtain ⟨t, hcycle, hrun, ht⟩ := runRole_commit_of_recorded ⟨a, b, c⟩ hsan
  exact ⟨t, congrArg Host.Outcome.next ((updCycle_of_commit ⟨a, b, c⟩ hq hd hc).trans hcycle), hrun, ht⟩

/-- Settles O58: the fallback records the open interlock and disarms; the rest of the cycle runs as of a disarmed
block. -/
theorem commitRecordsEveryFault : Obligations.CommitRecordsEveryFault := by
  intro s a b c hq hd hc hb
  have hback := fallback_of_open (quiet_directed true hq) hb rfl
  have hsan : sanFault ⟨a, b, c⟩ (fallback (directed true s)) =
      recorded (0x20#32 ||| bitIf (anySaturated s.par ⟨a, b, c⟩) 0x80#32)
        (withHalves (fallback (directed true s)).env (directed true s)) := by
    rw [hback, sanFault_eq, disarmedIf_of_safeOff _ _ _ ⟨rfl, rfl, rfl, rfl⟩, recorded_recorded]
    rfl
  obtain ⟨t, hcycle, hrun, ht⟩ := runRole_commit_of_recorded ⟨a, b, c⟩ hsan
  refine ⟨t, congrArg Host.Outcome.next ((updCycle_of_commit ⟨a, b, c⟩ hq hd hc).trans hcycle), ?_⟩
  have htim := congrArg State.tim ht
  have herr : t.run.error = s.run.error ||| (0x20#32 ||| bitIf (anySaturated s.par ⟨a, b, c⟩) 0x80#32) |||
      bitIf (busTrips t) 0x400#32 := congrArg Runtime.error hrun
  refine ⟨by rw [herr]; simp only [BitVec.or_assoc], ?_, congrArg Tim.ccrSh htim, congrArg State.dcf ht,
    congrArg (fun t => t.lat.iBus) ht, congrArg State.out ht⟩
  exact ⟨congrArg Tim.moe htim, congrArg Tim.aoe htim, congrArg Runtime.law hrun, congrArg Runtime.isArmed hrun⟩

/-! The law asked. -/

theorem askedAnswer_congr (l : LawSel) (q : OutResult) (v : F32) {s t : State} (hpar : t.par = s.par)
    (hrk : t.rk = s.rk) (hlk : t.lk = s.lk) : askedAnswer l q v t = askedAnswer l q v s := by
  cases l with
  | rmeas => simp only [askedAnswer, askedR, hpar, hrk]
  | lmeas => simp only [askedAnswer, askedL, hpar, hlk]
  | none | ext => rfl

/-- The body with the answer `r` (R129). -/
theorem commitBody_of_answer (i : Triple F32) {s : State} {v : F32} {q r : OutResult} (hlaw : s.run.law ≠ .none)
    (hv : s.env.vbus = held v) (hq : s.env.extOut = held q) (hr : askedAnswer s.run.law q v s = r) :
    ∃ e : Env, commitBody i s = commitTail (some r) (lawAsked i v e s) ∧
      e.brakeOk = s.env.brakeOk ∧ e.timEvents = s.env.timEvents := by
  obtain ⟨e, hout, hbrake, hevents⟩ := lawOut_eq s.run.law (lookAheadTs s) (s := { s with dcf := filtered i s }) hv
  have hresult : lawOutResult s.run.law { s with dcf := filtered i s } = some r := by
    rw [lawOutResult_eq hlaw (s := { s with dcf := filtered i s }) hv hq, ← hr]
    exact congrArg some (askedAnswer_congr _ _ _ rfl rfl rfl)
  refine ⟨e, ?_, hbrake, hevents⟩
  rw [commitBody, filterUpdate_eq]
  exact congrArg₂ commitTail hresult hout

/-- c3 to c6 of `COMMIT_BODY` for the answer `r`: what stands when the bus current is checked. -/
def answered (r : OutResult) (s : State) : State := latchBus (resultBus (some r) s) (commitResult (some r) s)

theorem answered_frame (r : OutResult) (s : State) :
    answered r s =
      { s with
        run := (answered r s).run
        tim := (answered r s).tim
        out := (answered r s).out
        env := (answered r s).env
        lat := { s.lat with iBus := (answered r s).lat.iBus } } := by
  apply state_eq_of_fields <;> simp [answered]

/-- A valid duty vector of an armed block (R130, R131). -/
theorem answered_of_duty {d : Triple F32} (hd : dutyOk d) {s : State} (hq : s.quiet) (hb : s.env.brakeOk = held true)
    (huif : s.tim.uif = false) (harm : s.run.isArmed = true) :
    answered (.duty d) s =
      { s with
        tim := { s.tim with ccrSh := codes s.par d, aoe := true }
        env := pwmEnv s.env
        lat := { s.lat with iBus := busSum s d } } := by
  have hvalid := (validDuty_iff d).mpr hd
  have hlatch := latchPwm_of_idle (codes s.par d) false hb (by rw [hq]) (fun i _ => by rw [hq]; rfl) huif
  have haoe : (s.tim.aoe || (!false && s.run.isArmed)) = true := by simp [harm]
  rw [answered, resultBus, commitResult, if_pos hvalid, if_pos hvalid, dutyCodes_eq s.par hd, hlatch, haoe, latchBus,
    if_pos harm]
  rfl

/-- An error that is not tolerated, and an invalid duty vector, disarm (R130, R132, R133). -/
theorem answered_of_raise {r : OutResult} {k : ErrorKind} {s : State} (h : commitResult (some r) s = raise k s) :
    answered r s = zeroBus (recorded (kindMask k) s) := by
  rw [answered, h, raise_eq_recorded]
  rfl

theorem commitResult_of_invalid {d : Triple F32} (hd : ¬ dutyOk d) (s : State) :
    commitResult (some (.duty d)) s = raise .controllerFailed s := by
  rw [commitResult, if_neg (mt (validDuty_iff d).mp hd)]

theorem commitResult_of_error {k : ErrorKind} {s : State} (h : k ≠ .controllerInitializing ∨ s.tim.moe = true) :
    commitResult (some (.err k)) s = raise k s := by
  have hnot : ¬ tolerated k s = true := by
    rcases h with h | h <;> simp [tolerated, h]
  rw [commitResult, if_neg hnot]

/-- The transient of R132 leaves the fallback. -/
theorem answered_of_tolerated {s : State} (hmoe : s.tim.moe = false) :
    answered (.err .controllerInitializing) s = zeroBus s := by
  have htol : tolerated .controllerInitializing s = true := by simp [tolerated, hmoe]
  rw [answered, commitResult, if_pos htol, resultBus, latchBus, ite_self]
  rfl

theorem ibusCheck_eq (s : State) : ibusCheck s = recordedIf (busTrips s) 0x400#32 s := by
  rw [ibusCheck, recordedIf]
  by_cases h : ibusTrips s = true
  · rw [h, if_pos ((ibusTrips_iff s).mp h)]
    exact raise_eq_recorded _ s
  · rw [Bool.eq_false_iff.mpr h, if_neg (mt (ibusTrips_iff s).mpr h)]
    rfl

/-- The state in which the answer is committed. -/
abbrev askedIn (adc : Triple U32) (v : F32) (e : Env) (s : State) : State :=
  lawAsked (currents s.par adc) v e (withHalves (pwmEnv (directed true s).env) (directed true s))

theorem updCycle_commit_of_answer (adc : Triple U32) {s : State} {v : F32} {q r : OutResult} (hquiet : s.quiet)
    (hd : s.tim.dir = true) (hc : s.run.countingDown = false) (hlaw : s.run.law ≠ .none)
    (hb : s.env.brakeOk = held true) (hv : s.env.vbus = held v) (hq : s.env.extOut = held q)
    (hsat : ¬ anySaturated s.par adc) (hr : askedAnswer s.run.law q v s = r) :
    ∃ e : Env, updCycle adc s = ibusCheck (answered r (askedIn adc v e s)) ∧ e.brakeOk = held true ∧
      e.timEvents = held 0 := by
  have hback := fallback_of_quiet (quiet_directed true hquiet) hb rfl
  have hsan : sanFault adc (fallback (directed true s)) =
      withHalves (pwmEnv (directed true s).env) (directed true s) := by
    rw [hback]
    exact sanFault_of_not_saturated hsat
  obtain ⟨e, hbody, hbrake, hevents⟩ := commitBody_of_answer (currents s.par adc)
    (s := withHalves (pwmEnv (directed true s).env) (directed true s)) hlaw hv hq
    ((askedAnswer_congr _ _ _ rfl rfl rfl).trans hr)
  refine ⟨e, ?_, hbrake.trans hb, hevents.trans ?_⟩
  · rw [updCycle_of_commit adc hquiet hd hc, runRole, phaseCurrents_eq, hsan]
    exact hbody
  · have hread : (directed true s).env.timEvents = held 0 := quiet_directed true hquiet
    simp only [pwmEnv, hread]
    rfl

/-- Settles O55: the body with each kind of answer. -/
theorem updCommitAsksLaw : Obligations.UpdCommitAsksLaw := by
  intro s a b c v q hquiet hd hc hlaw harm hb hv hq hahead hsat ts r asked run back
  obtain ⟨e, hcycle, hbrake, hevents⟩ :=
    updCycle_commit_of_answer ⟨a, b, c⟩ (r := r) hquiet hd hc hlaw hb hv hq hsat rfl
  have hasked : (askedIn ⟨a, b, c⟩ v e s).out = asked := by
    have hts : lookAheadTs (directed true s) = ts + 2#32 * s.par.tUpdTicks := by rw [← hahead]; rfl
    simp only [asked, ← hts]
    rfl
  have hbrk : (askedIn ⟨a, b, c⟩ v e s).out ++ brk (askedIn ⟨a, b, c⟩ v e s) = asked ++ [.brkRecomp] := by
    rw [hasked, brk, if_pos (by exact harm)]
  refine ⟨answered r (askedIn ⟨a, b, c⟩ v e s), congrArg Host.Outcome.next (hcycle.trans (ibusCheck_eq _)),
    answered_frame r (askedIn ⟨a, b, c⟩ v e s), fun d hrd hok => ?_, fun d hrd hbad => ?_, fun hrk hmoe => ?_,
    fun k hrk hk => ?_⟩
  · rw [hrd, answered_of_duty (s := askedIn ⟨a, b, c⟩ v e s) hok hevents hbrake rfl harm]
    exact ⟨rfl, rfl, rfl, hasked⟩
  · rw [hrd, answered_of_raise (commitResult_of_invalid hbad _)]
    exact ⟨rfl, rfl, rfl, hbrk⟩
  · rw [hrk, answered_of_tolerated (s := askedIn ⟨a, b, c⟩ v e s) hmoe]
    exact ⟨rfl, rfl, rfl, hasked⟩
  · rw [hrk, answered_of_raise (commitResult_of_error (s := askedIn ⟨a, b, c⟩ v e s) hk)]
    exact ⟨rfl, rfl, rfl, hbrk⟩

end Sys2Proof.Proofs

/-!
What every cycle keeps (spec/40_update_cycle R121, R135), and how several timer events before one cycle fold into one
(R122, R341).
-/

namespace Sys2Proof.Proofs

open Sys2Proof.Machine Sys2Proof.Claims

/-! The resistance kernel's parameters (spec/43_control_law R221). -/

theorem feedLaw_rk_parameters (s : State) :
    (feedLaw s).rk.target = s.rk.target ∧ (feedLaw s).rk.vmax = s.rk.vmax := by
  have hmeas : ∀ l v i ts (t : State),
      (lawMeas l v i ts t).rk.target = t.rk.target ∧ (lawMeas l v i ts t).rk.vmax = t.rk.vmax := by
    intro l v i ts t
    cases l with
    | rmeas => rw [lawMeas_eq]; exact ⟨rfl, rfl⟩
    | none | lmeas | ext => rw [lawMeas_rk_of_ne _ (by decide)]; exact ⟨rfl, rfl⟩
  unfold feedLaw
  split
  · exact ⟨rfl, rfl⟩
  · rw [raiseMeas_rk]
    exact hmeas _ _ _ _ (vbusRead s)

theorem updCycle_rk_parameters (adc : Triple U32) (s : State) :
    (updCycle adc s).rk.target = s.rk.target ∧ (updCycle adc s).rk.vmax = s.rk.vmax := by
  have hrole : ∀ role (t : State), (runRole role adc t).rk.target = t.rk.target ∧
      (runRole role adc t).rk.vmax = t.rk.vmax := by
    intro role t
    cases role <;> simp [runRole, senseBody, feedLaw_rk_parameters]
  rw [updCycle, directCycle]
  split
  · simp
  · simp [hrole]

/-- Settles O57: after lines 1 and 2 the timestamp stands, and no line touches the other fields. -/
theorem updCompletes : Obligations.UpdCompletes := by
  intro s a b c
  obtain ⟨htarget, hvmax⟩ := updCycle_rk_parameters ⟨a, b, c⟩ s
  exact ⟨updCycle ⟨a, b, c⟩ s, rfl, (steady_updCycle ⟨a, b, c⟩ s).ts, updCycle_par _ s, updCycle_cfg _ s,
    updCycle_gain _ s, updCycle_cal _ s, htarget, hvmax, updCycle_agenda _ s, updCycle_opnd _ s, updCycle_res _ s⟩

/-! `TimerUpdateMissed` is recorded by line 4 alone. -/

/-- From `s`, no external law being attached, to `t`: none is attached still, and the direction taken and the bit of
`TimerUpdateMissed` stand. -/
def Punctual (s t : State) : Prop :=
  s.run.law ≠ .ext → t.run.law ≠ .ext ∧ t.run.countingDown = s.run.countingDown ∧
    t.run.error &&& 0x800#32 = s.run.error &&& 0x800#32

namespace Punctual

theorem of_run_eq {s t : State} (h : t.run = s.run) : Punctual s t := fun hlaw => by
  rw [h]
  exact ⟨hlaw, rfl, rfl⟩

theorem trans {s t u : State} (h : Punctual s t) (h' : Punctual t u) : Punctual s u := fun hlaw => by
  obtain ⟨hlaw', hcount, herr⟩ := h hlaw
  obtain ⟨hlaw'', hcount', herr'⟩ := h' hlaw'
  exact ⟨hlaw'', hcount'.trans hcount, herr'.trans herr⟩

end Punctual

theorem punctual_raise {k : ErrorKind} (hk : k ≠ .timerUpdateMissed) (s : State) : Punctual s (raise k s) := by
  have hmask : kindMask k &&& 0x800#32 = 0#32 := by
    cases k with
    | timerUpdateMissed => exact absurd rfl hk
    | _ => rfl
  have hnone : LawSel.none ≠ .ext := by decide
  refine fun _ => ⟨hnone, rfl, ?_⟩
  rw [raise_eq_recorded, recorded, BitVec.and_or_distrib_right, hmask, BitVec.or_zero]

theorem punctual_raiseIf (c : Bool) {k : ErrorKind} (hk : k ≠ .timerUpdateMissed) (s : State) :
    Punctual s (raiseIf c k s) := by
  cases c
  · exact .of_run_eq rfl
  · exact punctual_raise hk s

theorem punctual_sanFault (adc : Triple U32) (s : State) : Punctual s (sanFault adc s) :=
  ((punctual_raiseIf _ (by decide) _).trans (punctual_raiseIf _ (by decide) _)).trans
    (punctual_raiseIf _ (by decide) _)

theorem punctual_superviseCheck (s : State) : Punctual s (superviseCheck s) := by
  have hnone : LawSel.none ≠ .ext := by decide
  unfold superviseCheck
  split
  · exact fun _ => ⟨hnone, rfl, rfl⟩
  · exact .of_run_eq rfl

/-- A built-in kernel measures out of range or lacks the bus voltage (spec/43_control_law R221, R229). -/
theorem punctual_feedLaw (s : State) : Punctual s (feedLaw s) := by
  have hkind : ∀ k, s.run.law ≠ .ext → fedResult s = .err k → k ≠ .timerUpdateMissed := by
    rintro k hlaw hk rfl
    revert hk
    rw [fedResult]
    cases hl : s.run.law with
    | none => simp [lawMeasResult]
    | rmeas => simp only [lawMeasResult, measRResult]; split_ifs <;> simp
    | lmeas => simp only [lawMeasResult, measLResult]; split_ifs <;> simp
    | ext => exact absurd hl hlaw
  intro hlaw
  rw [feedLaw_eq]
  split
  · exact ⟨hlaw, rfl, rfl⟩
  · have hfed : Punctual s (fed s) := .of_run_eq (by rw [fed, lawMeas_run, vbusRead_run])
    cases hr : fedResult s with
    | success => exact hfed hlaw
    | err k => exact hfed.trans (punctual_raise (hkind k hlaw hr) _) hlaw

theorem punctual_latchPwm (c : Triple U16) (t : Bool) (s : State) : Punctual s (latchPwm c t s) := by
  have hslot : ∀ x, Punctual x (timSlot x) := fun x => .of_run_eq (timSlot_run x)
  have hlock : ∀ x, Punctual x (testInterlock x) := fun x =>
    Punctual.trans (t := brakeRead x) (.of_run_eq rfl) (punctual_raiseIf _ (by decide) _)
  have hwrites : (setAoe t (timSlot (writeShC c.c (timSlot (writeShB c.b (timSlot (writeShA c.a
      (timSlot (testInterlock (timSlot s)))))))))).run = (testInterlock (timSlot s)).run := by simp
  exact ((hslot s).trans (hlock _)).trans
    (Punctual.trans (.of_run_eq hwrites) ((hslot _).trans (punctual_raiseIf _ (by decide) _)))

/-- A built-in kernel is initializing or lacks the bus voltage (R223, R231). -/
theorem punctual_commitResult {r : Option OutResult} (hr : ∀ k, r = some (.err k) → k ≠ .timerUpdateMissed)
    (s : State) : Punctual s (commitResult r s) := by
  unfold commitResult
  split
  · exact .of_run_eq rfl
  · split
    · exact punctual_latchPwm _ _ s
    · exact punctual_raise (by decide) s
  · next k =>
    split
    · exact .of_run_eq rfl
    · exact punctual_raise (hr k rfl) s

theorem lawOutResult_ne_missed {l : LawSel} (hl : l ≠ .ext) (s : State) (k : ErrorKind)
    (h : lawOutResult l s = some (.err k)) : k ≠ .timerUpdateMissed := by
  rintro rfl
  revert h
  cases l with
  | none => simp [lawOutResult]
  | rmeas => simp only [lawOutResult, outR]; split_ifs <;> simp
  | lmeas => simp only [lawOutResult, outLResult]; split_ifs <;> simp
  | ext => exact absurd rfl hl

theorem punctual_commitBody (i : Triple F32) (s : State) : Punctual s (commitBody i s) := by
  intro hlaw
  rw [commitBody, filterUpdate_eq]
  have hasked : ∀ ts, Punctual s (lawOut s.run.law ts { s with dcf := filtered i s }) := fun ts =>
    .of_run_eq (lawOut_run _ _ _)
  exact ((hasked _).trans <| (punctual_commitResult (lawOutResult_ne_missed hlaw _) _).trans <|
    Punctual.trans (.of_run_eq (latchBus_run _ _)) (punctual_raiseIf _ (by decide) _)) hlaw

theorem punctual_senseBody (i : Triple F32) (s : State) : Punctual s (senseBody i s) :=
  Punctual.trans (t := latchCurrents i s) (.of_run_eq rfl) <| (punctual_raiseIf _ (by decide) _).trans <|
    (punctual_superviseCheck _).trans <| Punctual.trans (.of_run_eq (evalLim_run _)) <|
    (punctual_raiseIf _ (by decide) _).trans (punctual_feedLaw _)

theorem punctual_runRole (role : Role) (adc : Triple U32) (s : State) : Punctual s (runRole role adc s) := by
  cases role with
  | sense => exact (punctual_sanFault adc s).trans (punctual_senseBody _ _)
  | commit =>
    exact ((punctual_latchPwm _ _ s).trans (punctual_sanFault adc (fallback s))).trans (punctual_commitBody _ _)

/-- A cycle that finds the other direction takes it (R121, R122). -/
theorem updCycle_of_changed (adc : Triple U32) {s : State} (hq : s.quiet) (h : s.tim.dir = !s.run.countingDown)
    (hlaw : s.run.law ≠ .ext) :
    (updCycle adc s).run.countingDown = s.tim.dir ∧
      (updCycle adc s).run.error &&& 0x800#32 = s.run.error &&& 0x800#32 := by
  have hcycle : updCycle adc s = runRole (roleOf s.tim.dir) adc (directed s.tim.dir s) := by
    have hne : ¬ (timRead (beginCycle s)).tim.dir = (timRead (beginCycle s)).run.countingDown := by
      change ¬ s.tim.dir = s.run.countingDown
      simp [h]
    rw [updCycle, timSlot_quiet (beginCycle s) hq, directCycle, if_neg hne]
    rfl
  rw [hcycle]
  exact (punctual_runRole (roleOf s.tim.dir) adc (directed s.tim.dir s) hlaw).2

/-! Timer events on the agenda. -/

/-- `n` timer events run, and leave what is to arrive after them (spec/41_arm_commit R166). -/
theorem run_timEvents (n k : ℕ) {s : State} {o : Operands} {rest : List Arrival}
    (h : s.agenda = List.replicate n (.uop8 0x80#8 o) ++ rest) :
    ∃ u : State, Host.Core.run core (n + k) s = Host.Core.run core k u ∧ u.agenda = rest ∧
      u.tim = eventTim^[n] s.tim ∧ u.run = s.run ∧ u.env = s.env ∧ (n = 0 → u = s) := by
  induction n generalizing s with
  | zero => exact ⟨s, by rw [Nat.zero_add], h, rfl, rfl, rfl, fun _ => rfl⟩
  | succ n ih =>
    obtain ⟨u, hrun, hagenda, htim, hruntime, henv, -⟩ :=
      ih (s := timEvent (popped (.uop8 0x80#8 o) (List.replicate n (.uop8 0x80#8 o) ++ rest) s)) rfl
    have hstep := run_succ_of_step (M := core) (n + k) (step_timEvent_of_agenda (s := s) h)
    refine ⟨u, ?_, hagenda, ?_, hruntime, henv, fun h0 => absurd h0 (Nat.succ_ne_zero n)⟩
    · rw [Nat.add_right_comm]
      exact hstep.trans hrun
    · rw [htim, timEvent_eq, Function.iterate_succ_apply]
      rfl

/-- The codes an event word carries (spec/30_encoding R94). -/
abbrev eventCodes (w : BitVec 96) : Triple U32 := ⟨w.extractLsb' 64 32, w.extractLsb' 32 32, w.extractLsb' 0 32⟩

/-- An event word finds a pending event, and its cycle runs; or none, and it is dropped (R120; log 9). -/
theorem step_upd96 {s : State} {w : BitVec 96} (h : s.agenda = [.upd96 w]) :
    (s.tim.uif = false → step s = .next { s with agenda := [], owed := false }) ∧
    (s.tim.uif = true →
      step s = .next (updCycle (eventCodes w) { s with agenda := [], owed := true })) := by
  have hw : ¬ mustWait (.upd96 w) s := fun ⟨_, _, hnever⟩ => hnever
  rw [step_of_arrival h hw]
  refine ⟨fun huif => ?_, fun huif => ?_⟩
  · have hoff : enabled (.upd96 w) (popped (.upd96 w) [] s) = false := huif
    rw [hoff, popped, huif]
    rfl
  · have hon : enabled (.upd96 w) (popped (.upd96 w) [] s) = true := huif
    rw [hon, popped, huif]
    rfl

/-- Settles O59: an even number of events leaves the direction as it was, an odd number changes it. -/
theorem foldedEventsByParity : Obligations.FoldedEventsByParity := by
  intro s n w o hq herr hdir hlaw h
  obtain ⟨u, hrun, hagenda, htim, hruntime, henv, hzero⟩ := run_timEvents n 1 h
  obtain ⟨hdropped, htaken⟩ := step_upd96 hagenda
  have hfew : u.tim.uif = false → n = 0 := by
    intro huif
    by_contra hn
    rw [htim, eventTim_iterate (Nat.one_le_iff_ne_zero.mpr hn)] at huif
    cases huif
  have hdir' : u.tim.dir = not^[n] u.run.countingDown := by rw [htim, eventTim_iterate_dir, hdir, hruntime]
  have hq' : u.quiet := by rwa [State.quiet, henv]
  cases huif : u.tim.uif with
  | false =>
    have hn := hfew huif
    obtain rfl := hzero hn
    refine ⟨_, hrun.trans (run_succ_of_step (M := core) 0 (hdropped huif)), fun _ _ => rfl, fun _ hpending => ?_,
      fun hodd => ?_⟩
    · rcases hpending with hpos | hpending
      · omega
      · exact absurd (huif.symm.trans hpending) (by decide)
    · omega
  | true =>
    refine ⟨_, hrun.trans (run_succ_of_step (M := core) 0 (htaken huif)), fun hn hidle => ?_, fun heven _ => ?_,
      fun hodd => ?_⟩
    · obtain rfl := hzero hn
      exact absurd (huif.symm.trans hidle) (by decide)
    · rw [(Bool.involutive_not).iterate_even (Nat.even_iff.mpr heven)] at hdir'
      rw [updCycle_of_missed _ (s := { u with agenda := [], owed := true }) hq' hdir']
      refine ⟨?_, (congrArg Runtime.countingDown hruntime :)⟩
      change u.run.error ||| 0x800#32 = 0x800#32
      rw [hruntime, herr, BitVec.zero_or]
    · rw [(Bool.involutive_not).iterate_odd (Nat.odd_iff.mpr hodd)] at hdir'
      obtain ⟨hcount, hmissed⟩ := updCycle_of_changed (eventCodes w) (s := { u with agenda := [], owed := true }) hq'
        hdir' (hruntime ▸ hlaw)
      rw [hcount, hmissed, hdir', hruntime, herr]
      exact ⟨BitVec.zero_and, rfl⟩

end Sys2Proof.Proofs

/-!
Nothing but an arm with the interlock satisfied takes a block out of the state a disarm leaves it in (spec/41_arm_commit
R155, R159): said once, as a relation that every operation is in that does not arm.
-/

namespace Sys2Proof.Proofs

open Sys2Proof.Machine Sys2Proof.Claims

/-! The relation. -/

/-- The fields that say whether the block is armed and its outputs are, or will be, driven. -/
def switches (s : State) : Bool × LawSel × Bool × Bool := (s.run.isArmed, s.run.law, s.tim.moe, s.tim.aoe)

/-- From `s` to `t` nothing arms: a disarmed block stays disarmed and, if it is safely off, safely off. -/
def StaysOff (s t : State) : Prop := s.run.isArmed = false → t.run.isArmed = false ∧ (s.safeOff → t.safeOff)

namespace StaysOff

theorem of_eq {s t : State} (h : switches t = switches s := by rfl) : StaysOff s t := by
  simp only [switches, Prod.mk.injEq] at h
  obtain ⟨harm, hlaw, hmoe, haoe⟩ := h
  intro hoff
  rw [State.safeOff, State.safeOff, harm, hlaw, hmoe, haoe]
  exact ⟨hoff, fun h => h⟩

theorem of_run_tim_eq {s t : State} (hrun : t.run = s.run) (htim : t.tim = s.tim) : StaysOff s t :=
  of_eq (by rw [switches, switches, hrun, htim])

theorem refl (s : State) : StaysOff s s := of_eq

theorem of_safeOff {s t : State} (h : t.safeOff) : StaysOff s t := by
  obtain ⟨-, -, -, harm⟩ := id h
  exact fun _ => ⟨harm, fun _ => h⟩

theorem trans {s t u : State} (h : StaysOff s t) (h' : StaysOff t u) : StaysOff s u := fun hoff => by
  obtain ⟨ht, hsafe⟩ := h hoff
  obtain ⟨hu, hsafe'⟩ := h' ht
  exact ⟨hu, fun hs => hsafe' (hsafe hs)⟩

end StaysOff

/-! The fault mechanism, the timer and the latch arbiter. -/

theorem staysOff_disarm (s : State) : StaysOff s (disarm s) := .of_safeOff (disarm_safeOff s)

theorem staysOff_raise (k : ErrorKind) (s : State) : StaysOff s (raise k s) := .of_safeOff (raise_safeOff k s)

theorem staysOff_raiseIf (c : Bool) (k : ErrorKind) (s : State) : StaysOff s (raiseIf c k s) := by
  cases c
  · exact .refl s
  · exact staysOff_raise k s

/-- With the latch clear an event drives nothing (R166). -/
theorem staysOff_timEvent (s : State) : StaysOff s (timEvent s) := by
  refine fun hoff => ⟨hoff, fun ⟨hmoe, haoe, hlaw, harm⟩ => ⟨?_, haoe, hlaw, harm⟩⟩
  rw [timEvent_tim, hmoe, haoe]
  rfl

theorem staysOff_timEvents (n : ℕ) (s : State) : StaysOff s (timEvents n s) := by
  induction n generalizing s with
  | zero => exact .refl s
  | succ n ih => exact (staysOff_timEvent s).trans (ih (timEvent s))

theorem staysOff_timSlot (s : State) : StaysOff s (timSlot s) :=
  StaysOff.trans (t := timRead s) .of_eq (staysOff_timEvents _ _)

/-- The latch is set of an armed block only (R162). -/
theorem staysOff_setAoe (t : Bool) (s : State) : StaysOff s (setAoe t s) := by
  intro hoff
  have hkeep : setAoe t s = s := by
    rw [setAoe, hoff, Bool.and_false]
    rfl
  rw [hkeep]
  exact ⟨hoff, fun h => h⟩

theorem staysOff_testInterlock (s : State) : StaysOff s (testInterlock s) :=
  StaysOff.trans (t := brakeRead s) .of_eq (staysOff_raiseIf _ _ _)

theorem staysOff_latchPwm (c : Triple U16) (t : Bool) (s : State) : StaysOff s (latchPwm c t s) := by
  have hA : ∀ x, StaysOff x (writeShA c.a x) := fun _ => .of_eq
  have hB : ∀ x, StaysOff x (writeShB c.b x) := fun _ => .of_eq
  have hC : ∀ x, StaysOff x (writeShC c.c x) := fun _ => .of_eq
  exact (staysOff_timSlot s).trans <| (staysOff_testInterlock _).trans <| (staysOff_timSlot _).trans <|
    (hA _).trans <| (staysOff_timSlot _).trans <| (hB _).trans <| (staysOff_timSlot _).trans <|
    (hC _).trans <| (staysOff_timSlot _).trans <| (staysOff_setAoe t _).trans <|
    (staysOff_timSlot _).trans (staysOff_raiseIf _ _ _)

/-! The update cycle. -/

theorem staysOff_sanFault (adc : Triple U32) (s : State) : StaysOff s (sanFault adc s) :=
  ((staysOff_raiseIf _ _ _).trans (staysOff_raiseIf _ _ _)).trans (staysOff_raiseIf _ _ _)

theorem staysOff_superviseCheck (s : State) : StaysOff s (superviseCheck s) := by
  unfold superviseCheck
  split
  · exact .of_safeOff (disarm_safeOff _)
  · exact .of_eq

theorem staysOff_feedLaw (s : State) : StaysOff s (feedLaw s) := by
  have hfed : StaysOff s (fed s) := .of_run_tim_eq (lawMeas_run _ _ _ _ _) (lawMeas_tim _ _ _ _ _)
  rw [feedLaw_eq]
  split
  · exact .refl s
  · cases fedResult s with
    | success => exact hfed
    | err k => exact hfed.trans (staysOff_raise k _)

theorem staysOff_senseBody (i : Triple F32) (s : State) : StaysOff s (senseBody i s) :=
  StaysOff.trans (t := latchCurrents i s) .of_eq <| (staysOff_raiseIf _ _ _).trans <|
    (staysOff_superviseCheck _).trans <| (StaysOff.of_run_tim_eq (evalLim_run _) (evalLim_tim _)).trans <|
    (staysOff_raiseIf _ _ _).trans (staysOff_feedLaw _)

theorem staysOff_commitResult (r : Option OutResult) (s : State) : StaysOff s (commitResult r s) := by
  unfold commitResult
  split
  · exact .refl s
  · split
    · exact staysOff_latchPwm _ _ s
    · exact staysOff_raise _ s
  · split
    · exact .refl s
    · exact staysOff_raise _ s

theorem staysOff_commitBody (i : Triple F32) (s : State) : StaysOff s (commitBody i s) := by
  have hfiltered : StaysOff s (filterUpdate i s) := .of_run_tim_eq (filterUpdate_run i s) (filterUpdate_tim i s)
  have hasked : ∀ l ts x, StaysOff x (lawOut l ts x) := fun l ts x =>
    .of_run_tim_eq (lawOut_run l ts x) (lawOut_tim l ts x)
  have hbus : ∀ ibus x, StaysOff x (latchBus ibus x) := fun _ _ => .of_eq
  exact hfiltered.trans <| (hasked _ _ _).trans <| (staysOff_commitResult _ _).trans <|
    (hbus _ _).trans (staysOff_raiseIf _ _ _)

theorem staysOff_runRole (role : Role) (adc : Triple U32) (s : State) : StaysOff s (runRole role adc s) := by
  cases role with
  | sense => exact (staysOff_sanFault adc s).trans (staysOff_senseBody _ _)
  | commit =>
    exact ((staysOff_latchPwm _ _ s).trans (staysOff_sanFault adc (fallback s))).trans (staysOff_commitBody _ _)

theorem staysOff_updCycle (adc : Triple U32) (s : State) : StaysOff s (updCycle adc s) := by
  have hdirect : ∀ x, StaysOff x (directCycle adc x) := fun x => by
    unfold directCycle
    split
    · exact staysOff_raise _ x
    · exact StaysOff.trans (t := setDirection x.tim.dir x) .of_eq (staysOff_runRole _ adc _)
  exact StaysOff.trans (t := beginCycle s) .of_eq ((staysOff_timSlot _).trans (hdirect _))

/-! The commands. -/

/-- An operation that asks for an arm (R150; spec/45_calibration R274, R279). -/
abbrev Arms (i : Instr) : Prop := (∃ sel, i = .arm sel) ∨ i = .calRun ∨ i = .calR ∨ i = .calL

/-- A refused arm takes its draw (R151). -/
theorem armLaw_of_open (l : LawSel) {s : State} (h : brakeNow s = false) : armLaw l s = brakeRead s := by
  rw [armLaw, h]
  rfl

theorem staysOff_armCmd (sel : U8) {s : State} (h : brakeNow s = false) : StaysOff s (armCmd sel s) := by
  unfold armCmd
  split
  · rw [armLaw_of_open _ h]
    exact .of_eq
  · exact .of_eq

theorem staysOff_startR {s : State} (h : brakeNow s = false) : StaysOff s (startR s) := by
  rw [startR, armLaw_of_open _ (s := createR s) h]
  exact .of_eq

theorem staysOff_startL {s : State} (h : brakeNow s = false) : StaysOff s (startL s) := by
  rw [startL, armLaw_of_open _ (s := createL s) h]
  exact .of_eq

theorem staysOff_whenIdle (op : U8) {f : State → State} {s : State} (h : StaysOff s (f s)) :
    StaysOff s (whenIdle op f s) := by
  unfold whenIdle
  split
  · exact h
  · exact .of_eq

theorem staysOff_calRunIdle {s : State} (h : brakeNow s = false) : StaysOff s (calRunIdle s) := by
  rw [calRunIdle_eq]
  split_ifs
  · exact .of_eq
  · exact .of_eq
  · exact StaysOff.trans (t := setSeq true s) .of_eq (staysOff_startR h)

theorem staysOff_disarmErrCmd (sel : U8) (s : State) : StaysOff s (disarmErrCmd sel s) := by
  unfold disarmErrCmd
  split
  · exact staysOff_raise _ s
  · exact .of_eq

theorem staysOff_cfgWrite (n : ℕ) (v : U32) (s : State) : StaysOff s (cfgWrite n v s) :=
  .of_run_tim_eq (cfgWrite_run n v s) (cfgWrite_tim n v s)

theorem staysOff_cfgWr (sel : U8) (data : U32) (s : State) : StaysOff s (cfgWr sel data s) := by
  unfold cfgWr
  split
  · exact .of_eq
  · exact staysOff_cfgWrite _ _ s

theorem staysOff_regRd (sel : U8) (s : State) : StaysOff s (regRd sel s) := by
  unfold regRd
  split <;> exact .of_eq

/-! The end of a measurement (spec/45_calibration R276, R281). -/

theorem staysOff_concludeMeas (reg : ℕ) (k : ErrorKind) (op : U8) (reason : BitVec 2) (v : F32) (ok : Bool)
    (s : State) : StaysOff s (concludeMeas reg k op reason v ok s) :=
  ((staysOff_cfgWrite reg v.toBits s).trans (staysOff_raiseIf _ _ _)).trans .of_eq

/-- A sequence whose measurement failed does not go on. -/
theorem staysOff_leaveR (seq : Bool) (s : State) : StaysOff s (leaveR seq false s) := by
  cases seq <;> exact .of_eq

theorem staysOff_leaveL (seq ok : Bool) (s : State) : StaysOff s (leaveL seq ok s) := by
  cases seq <;> cases ok <;> exact .of_eq

/-- A measurement that ends disarmed has failed, so that the sequence arms no second one. -/
theorem staysOff_finish (reason : BitVec 2) (s : State) : StaysOff s (finish reason s) := by
  intro hoff
  have hfailed : ∀ v, measOk v s = false := fun v => by rw [measOk, hoff, Bool.false_and]
  have hidle : ∀ x, StaysOff x (setCal .idle x) := fun _ => .of_eq
  refine (?_ : StaysOff s (finish reason s)) hoff
  rw [finish_eq]
  split_ifs
  · rw [finishR_eq, hfailed]
    exact (staysOff_disarm s).trans ((staysOff_concludeMeas _ _ _ _ _ _ _).trans (staysOff_leaveR _ _))
  · rw [finishL_eq]
    exact (staysOff_disarm s).trans ((staysOff_concludeMeas _ _ _ _ _ _ _).trans
      ((hidle _).trans (staysOff_leaveL _ _ _)))
  · exact .refl s

theorem staysOff_calPoll (s : State) : StaysOff s (calPoll s) := by
  have hread : StaysOff s (reqRead s) := .of_eq
  unfold calPoll
  split
  · exact .refl s
  · rcases pollLoop_cases s with ⟨-, heq⟩ | ⟨-, -, heq⟩ | ⟨-, -, -, heq⟩ | ⟨-, -, -, heq⟩ <;> rw [heq]
    · exact staysOff_finish _ s
    · exact hread.trans (staysOff_finish _ _)
    · exact hread.trans (staysOff_finish _ _)
    · exact .of_eq

/-! Every operation. -/

/-- Every operation keeps a disarmed block off, the four that ask for an arm as long as the interlock is open (R151). -/
theorem staysOff_nextState {i : Instr} {s : State} (h : Arms i → brakeNow s = false) :
    StaysOff s (nextState i s) := by
  cases i with
  | arm sel => exact staysOff_armCmd sel (h (.inl ⟨sel, rfl⟩))
  | calRun => exact staysOff_whenIdle _ (staysOff_calRunIdle (h (.inr (.inl rfl))))
  | calR =>
    exact staysOff_whenIdle _ <|
      StaysOff.trans (t := setSeq false s) .of_eq (staysOff_startR (h (.inr (.inr (.inl rfl)))))
  | calL =>
    exact staysOff_whenIdle _ <|
      StaysOff.trans (t := setSeq false s) .of_eq (staysOff_startL (h (.inr (.inr (.inr rfl)))))
  | disarm => exact (staysOff_disarm s).trans .of_eq
  | disarmErr sel => exact staysOff_disarmErrCmd sel s
  | updGains => exact staysOff_whenIdle _ .of_eq
  | calPoll => exact staysOff_calPoll s
  | cfgWr sel data => exact staysOff_cfgWr sel data s
  | regRd sel => exact staysOff_regRd sel s
  | upd a b c => exact staysOff_updCycle _ s
  | timEvent => exact staysOff_timEvent s
  | applyPwm => exact staysOff_latchPwm _ _ s
  | sanitize => exact (staysOff_sanFault _ s).trans .of_eq
  | leakChk | magChk | ibusChk => exact staysOff_raiseIf _ _ s
  | evalLim => exact .of_run_tim_eq (evalLim_run s) (evalLim_tim s)
  | maxTorque => exact .of_run_tim_eq (torqueRead_run s) (torqueRead_tim s)
  | dcfUpdate => exact .of_run_tim_eq (filterUpdate_run _ s) (filterUpdate_tim _ s)
  | lawMeasR => exact .of_run_tim_eq (measR_run _ _ s) (measR_tim _ _ s)
  | lawMeasL => exact .of_run_tim_eq (measL_run _ _ _ s) (measL_tim _ _ _ s)
  | lawOutL => exact .of_run_tim_eq (outL_run s) (outL_tim s)
  | nop | clrErr | getR | getL | adc2amp | infer | dcfValid | correct | duty2ccr | lawResetR | lawOutR | lawResetL
  | lawResetX | lawMeasX | lawOutX => exact .of_eq

/-- Settles O16: with the interlock open, or without an arm asked for, a disarmed block stays disarmed. -/
theorem onlyArmEntersArmed : Obligations.OnlyArmEntersArmed := by
  intro i s t he hoff hon
  by_contra hno
  rw [eq_nextState_of_exec he] at hon
  obtain ⟨hstill, -⟩ := staysOff_nextState (fun harms => Bool.eq_false_iff.mpr fun hb => hno ⟨hb, harms⟩) hoff
  exact absurd (hstill.symm.trans hon) Bool.false_ne_true

/-! A run without an arm. -/

/-- An operation takes nothing off the agenda (spec/20_memory R78). -/
theorem nextState_agenda (i : Instr) (s : State) : (nextState i s).agenda = s.agenda := by
  cases hi : movesTimer i with
  | false => exact (steady_nextState hi s).agenda
  | true =>
    cases i with
    | timEvent => rfl
    | upd a b c => exact updCycle_agenda _ s
    | _ => cases hi

/-- Safely off, and no arm to come. -/
abbrev OffForGood (s : State) : Prop := s.safeOff ∧ ∀ a ∈ s.agenda, ¬ asksArm a

theorem OffForGood.of_eq {s t : State} (h : OffForGood s) (hrun : t.run = s.run) (htim : t.tim = s.tim)
    (hagenda : t.agenda = s.agenda ∨ t.agenda = s.agenda.tail) : OffForGood t := by
  obtain ⟨hoff, hnone⟩ := h
  refine ⟨by rwa [State.safeOff, hrun, htim], fun a ha => hnone a ?_⟩
  rcases hagenda with heq | heq <;> rw [heq] at ha
  · exact ha
  · exact List.mem_of_mem_tail ha

theorem OffForGood.of_exec {i : Instr} {s t : State} (h : OffForGood s) (hi : ¬ Arms i) (he : exec i s = .next t) :
    OffForGood t := by
  obtain ⟨hoff, hnone⟩ := h
  obtain ⟨-, -, -, harm⟩ := id hoff
  obtain ⟨-, hstays⟩ := staysOff_nextState (fun harms => absurd harms hi) harm
  rw [eq_nextState_of_exec he]
  exact ⟨hstays hoff, by rwa [nextState_agenda]⟩

/-- Whichever turn the step takes, it runs a cycle, an operation that asks for no arm, or none. -/
theorem step_offForGood (s t : State) (h : OffForGood s) (hstep : step s = .next t) : OffForGood t := by
  have htaken : ∀ a, OffForGood (takeArrival a s) := fun a =>
    h.of_eq (takeArrival_run a s) (takeArrival_tim a s) (.inr (takeArrival_agenda a s))
  rcases step_cases s t hstep with ⟨-, he⟩ | ⟨-, a, rest, hagenda, hturn⟩ | ⟨-, -, rfl⟩
  · exact (h.of_eq rfl rfl (.inl rfl) : OffForGood (takeDue s)).of_exec (by simp [Arms, decodeUpd]) he
  · rcases hturn with ⟨-, rfl⟩ | ⟨-, i, hi, he⟩ | ⟨-, op, -, rfl⟩
    · exact htaken a
    · obtain ⟨-, hnone⟩ := h
      exact (htaken a).of_exec (fun harms => hnone a (by simp [hagenda]) ⟨i, hi, harms⟩) he
    · exact (htaken a).of_eq rfl rfl (.inl rfl)
  · exact h

/-- Settles O18: no step, and so no run, leaves the state a disarm leaves, with no arm to come. -/
theorem noEnableAfterDisarmUntilArm : Obligations.NoEnableAfterDisarmUntilArm := by
  intro s k t hoff hnone hrun
  obtain ⟨ht, -⟩ := run_induction (M := core) (P := OffForGood) step_offForGood k ⟨hoff, hnone⟩ hrun
  exact ht

end Sys2Proof.Proofs

/-!
Arm, disarm, the error mask, the timer's step and the latch arbiter as operations (spec/41_arm_commit): what each
answers, exactly.
-/

namespace Sys2Proof.Proofs

open Sys2Proof.Machine Sys2Proof.Claims

/-! The mask and the disarm (R157, R160, R168). -/

/-- Settles O23: the meanings of the two operations are these states. -/
theorem nopAndClearErr : Obligations.NopAndClearErr := fun _ => ⟨rfl, rfl⟩

/-- Settles O24: the port's result follows what the disarm emits. -/
theorem disarmResult : Obligations.DisarmResult := by
  intro s
  refine congrArg Host.Outcome.next ?_
  have hout : (emit (.cmdResult opDisarm (bitWord s.run.isArmed)) (disarm s)).out =
      s.out ++ brk s ++ [.cmdResult 0x02#8 (if s.run.isArmed then 1#32 else 0#32)] := by
    rw [emit_out, disarm_out_eq]
    rfl
  exact state_eq_of_fields _ _ rfl rfl rfl rfl rfl rfl rfl rfl rfl rfl hout rfl rfl rfl rfl rfl

/-- The kind of number `k` has bit `k` of the mask (spec/30_encoding R91, R96). -/
theorem exists_kindOfSel {k : ℕ} (hk : k ≤ 12) :
    ∃ e, kindOfSel (BitVec.ofNat 8 k) = some e ∧ kindMask e = BitVec.ofNat 32 (2 ^ k) := by
  interval_cases k <;> exact ⟨_, rfl, rfl⟩

/-- Settles O25: a legal selector names a kind, and raising it is the fault entry. -/
theorem disarmErrRecords : Obligations.DisarmErrRecords := by
  intro s k hk
  obtain ⟨e, hkind, hmask⟩ := exists_kindOfSel hk
  rw [← hmask, ← raise_eq_recorded]
  change Host.Outcome.next (disarmErrCmd _ s) = _
  rw [disarmErrCmd, hkind]

/-! Arm (R150 to R153). -/

/-- A legal selector names a law (spec/30_encoding R96). -/
theorem exists_lawOfSel {sel : U8} (h : (Instr.arm sel).wf = true) : ∃ l, lawOfSel sel = some l := by
  simp only [Instr.wf, Bool.and_eq_true, decide_eq_true_eq] at h
  obtain ⟨hlow, hhigh⟩ := h
  obtain rfl | rfl | rfl : sel = 1#8 ∨ sel = 2#8 ∨ sel = 3#8 := by bv_omega
  all_goals exact ⟨_, rfl⟩

/-- Settles O26: an accepted arm is `attach` on the state that has read the interlock, a refused one that state. -/
theorem armOutcome : Obligations.ArmOutcome := by
  have haccepted : ∀ (l : LawSel) {s : State}, brakeNow s = true → armLaw l s = attach l (brakeRead s) :=
    fun l s h => if_pos h
  refine ⟨fun s h => ⟨?_, ?_, ?_⟩, fun s sel h hwf => ⟨?_, rfl⟩⟩
  · exact congrArg Host.Outcome.next (haccepted .rmeas h)
  · exact congrArg Host.Outcome.next (haccepted .lmeas h)
  · refine congrArg Host.Outcome.next ((haccepted .ext h).trans ?_)
    exact state_eq_of_fields _ _ rfl rfl rfl rfl rfl rfl rfl rfl rfl rfl (List.append_assoc _ _ _) rfl rfl rfl rfl rfl
  · obtain ⟨l, hl⟩ := exists_lawOfSel hwf
    change Host.Outcome.next (armCmd sel s) = _
    rw [armCmd, hl]
    exact congrArg Host.Outcome.next (armLaw_of_open l h)

/-! The timer's step and the latch arbiter (R162 to R166). -/

/-- Settles O37: the enable is the only field the machine writes in another form. -/
theorem timEventLatches : Obligations.TimEventLatches := fun s => congrArg Host.Outcome.next (timEvent_eq s)

/-- Settles O39: one event is one boundary's events, and the call ends with the deadline missed. -/
theorem applyPwmLateEvent : Obligations.ApplyPwmLateEvent := by
  intro s k hk hevents hbrake _
  exact ⟨pwmEnv s.env, congrArg Host.Outcome.next
    (latchPwm_of_late s.opnd.codes s.opnd.tentative (Nat.le_refl 1) hk hbrake hevents)⟩

/-- What the writes of an `APPLY_PWM` leave (R162 p1 to p4), the environment at `e`. -/
def committed (c : Triple U16) (t : Bool) (e : Env) (s : State) : State :=
  { s with tim := { s.tim with ccrSh := c, aoe := s.tim.aoe || (!t && s.run.isArmed) }, env := e }

/-- After a disarm p4 sets no latch, so that the disarm may as well come last (R165). -/
theorem committed_disarmedIf (p : Prop) [Decidable p] (m : U32) (c : Triple U16) (t : Bool) (e : Env) (s : State) :
    committed c t e (disarmedIf p m s) = disarmedIf p m (committed c t e s) := by
  by_cases hp : p
  · rw [disarmedIf_of_pos p m s hp, disarmedIf_of_pos p m _ hp]
    apply state_eq_of_fields
    case h10 => simp [committed, recorded]
    all_goals rfl
  · rw [disarmedIf, if_neg hp, disarmedIf, if_neg hp]
    rfl

/-- The interlock test as a row of tests (R165). -/
theorem testInterlock_eq (s : State) :
    testInterlock s = disarmedIf (brakeNow s = false) (bitIf (brakeNow s = false) 0x20#32) (brakeRead s) := by
  rw [testInterlock, raiseIf_eq_disarmedIf]
  cases brakeNow s <;> rfl

theorem exists_writes_eq_committed (c : Triple U16) (t : Bool) (s : State) :
    ∃ e : Env,
      timRead (setAoe t (timRead (writeShC c.c (timRead (writeShB c.b (timRead (writeShA c.a (timRead s)))))))) =
        committed c t e s := by
  refine ⟨(timRead (timRead (timRead (timRead (timRead s))))).env, ?_⟩
  apply state_eq_of_fields <;> simp [committed]

/-- With no event inside, the two tests of an `APPLY_PWM` are one row of tests of what its writes leave (R164, R165). -/
theorem exists_latchPwm_eq (c : Triple U16) (t : Bool) {s : State} (hq : s.quiet) :
    ∃ e : Env, latchPwm c t s =
      disarmedIf (brakeNow (timRead s) = false ∨ s.tim.uif = true)
        (bitIf (brakeNow (timRead s) = false) 0x20#32 ||| bitIf (s.tim.uif = true) 0x40#32) (committed c t e s) := by
  obtain ⟨e, he⟩ := exists_writes_eq_committed c t (testInterlock (timRead s))
  have huif : (disarmedIf (brakeNow (timRead s) = false) (bitIf (brakeNow (timRead s) = false) 0x20#32)
      (committed c t e s)).tim.uif = s.tim.uif := by
    unfold disarmedIf
    split <;> rfl
  refine ⟨e, ?_⟩
  rw [latchPwm_quiet c t s hq, he, testInterlock_eq, committed_disarmedIf]
  change testLate (disarmedIf _ _ (committed c t e s)) = _
  rw [testLate, huif, raiseIf_eq_disarmedIf, disarmedIf_disarmedIf]
  rfl

/-- Settles O38: the two tests as one row, field by field. -/
theorem applyPwmWithoutEvent : Obligations.ApplyPwmWithoutEvent := by
  intro s hq down late off
  obtain ⟨e, he⟩ := exists_latchPwm_eq s.opnd.codes s.opnd.tentative hq
  refine ⟨e, congrArg Host.Outcome.next (he.trans ?_)⟩
  change disarmedIf off (bitIf down 0x20#32 ||| bitIf late 0x40#32) (committed _ _ e s) = _
  by_cases h : off
  · rw [disarmedIf_of_pos off _ _ h]
    simp only [if_pos h, BitVec.or_assoc]
    rfl
  · rw [disarmedIf, if_neg h]
    simp only [if_neg h, BitVec.or_assoc]
    rfl

end Sys2Proof.Proofs

/-!
Acquisition, the offset filter and the comparators as operations (spec/42_acquisition_filter; spec/44_limits R254;
spec/40_update_cycle R134): what each answers or records, exactly, and when the filter is not valid.
-/

namespace Sys2Proof.Proofs

open Sys2Proof.Machine Sys2Proof.Claims

/-! A fault test that records its bit. -/

theorem disarmedIf_bitIf (c : Prop) [Decidable c] (m : U32) (s : State) :
    disarmedIf c (bitIf c m) s = recordedIf c m s := by
  by_cases h : c
  · rw [disarmedIf_of_pos c _ s h, bitIf, if_pos h, recordedIf, if_pos h]
  · rw [bitIf, if_neg h, disarmedIf_of_neg c s h, recordedIf, if_neg h]

theorem raiseIf_eq_recordedIf (b : Bool) (k : ErrorKind) (s : State) :
    raiseIf b k s = recordedIf (b = true) (kindMask k) s :=
  (raiseIf_eq_disarmedIf b k s).trans (disarmedIf_bitIf _ _ s)

/-- Settles O45: the first two comparators are raised by the tests as the statement writes them. -/
theorem comparatorsTrip : Obligations.ComparatorsTrip := fun s =>
  ⟨congrArg Host.Outcome.next (raiseIf_eq_recordedIf (leakTrips s) .iLeakOutOfRange s),
    congrArg Host.Outcome.next (raiseIf_eq_recordedIf (magTrips s) .currentLimitViolation s),
    congrArg Host.Outcome.next (ibusCheck_eq s)⟩

/-! From codes to currents (R182 to R187). -/

theorem sanLane_eq (p : Params) (k : ℕ) (c : U32) : sanLane p (p.senseMask.getLsbD k) c = sanitized p k c := by
  simp only [sanLane, sanitized, saturates_eq, Bool.or_eq_true, Bool.not_eq_true']

theorem adcToAmp_eq (p : Params) (c : U32) : adcToAmp p c = amps p c := by
  have hmid : (p.adcMid : ℤ) = 2 ^ (p.adcBits - 1) := Nat.cast_pow 2 _
  rw [adcToAmp, amps, hmid]

theorem inferPhases_eq (p : Params) (i : Triple F32) : inferPhases p i = inferred p.senseMask i := by
  unfold inferPhases inferred
  split
  · next h => rw [if_pos h]
  · next h => rw [if_neg (by simp [h]), if_pos h]
  · next h => rw [if_neg (by simp [h]), if_neg (by simp [h]), if_pos h]
  · next ha hb hc => rw [if_neg ha, if_neg hb, if_neg hc]

/-- Settles O41: the three lanes' fault is one test (`sanFault_eq`), the codes are the statement's. -/
theorem sanitizeCodes : Obligations.SanitizeCodes := by
  intro s adc
  have hfault : sanFault adc s = recordedIf (anySaturated s.par adc) 0x80#32 s :=
    (sanFault_eq adc s).trans (disarmedIf_bitIf _ _ s)
  have hcodes : sanCodes s.par adc =
      ⟨sanitized s.par 0 adc.a, sanitized s.par 1 adc.b, sanitized s.par 2 adc.c⟩ := by
    simp only [sanCodes, sensedA, sensedB, sensedC, sanLane_eq]
  change Host.Outcome.next (answer (.codes (sanCodes s.par adc)) (sanFault adc s)) = _
  rw [hfault, hcodes]
  rfl

/-- Settles O42: lane and phases are converted as the statement writes it. -/
theorem convertAndInfer : Obligations.ConvertAndInfer := by
  intro s
  rw [← adcToAmp_eq, ← inferPhases_eq]
  exact ⟨rfl, rfl⟩

/-- Settles O43: by `filterUpdate_eq`, the operand in its latch. -/
theorem filterUpdateResult : Obligations.FilterUpdateResult := fun s =>
  congrArg Host.Outcome.next (filterUpdate_eq s.opnd.amps s)

/-! Positive numbers (R16, R17). -/

theorem not_zero_lt_zero : F32.lt F32.zero F32.zero = false := by decide

theorem zero_lt_of_zero_lt_of_le {x y : F32} (hx : F32.lt F32.zero x = true) (hxy : F32.le x y = true) :
    F32.lt F32.zero y = true := by
  cases x with
  | nan n p => cases hx
  | inf n =>
    cases n with
    | true => cases hx
    | false =>
      cases y with
      | nan m p | finite m g k => cases hxy
      | inf m => exact hxy
  | finite n e f =>
    cases y with
    | nan m p => cases hxy
    | inf m => exact hxy
    | finite m g k =>
      rw [lt_iff_value_lt rfl rfl] at hx ⊢
      exact hx.trans_le ((le_iff_value_le rfl rfl).mp hxy)

theorem zero_le_of_zero_lt {x : F32} (h : F32.lt F32.zero x = true) : F32.le F32.zero x = true := by
  cases x with
  | nan n p | inf n => exact h
  | finite n e f =>
    rw [lt_iff_value_lt rfl rfl] at h
    exact (le_iff_value_le rfl rfl).mpr h.le

/-- A number that is not negative is positive unless it is one of the two zeros. -/
theorem zero_lt_of_zero_le {x : F32} (h : F32.le F32.zero x = true) (h0 : ∀ n, x ≠ .finite n 0 0#23) :
    F32.lt F32.zero x = true := by
  cases x with
  | nan n p | inf n => exact h
  | finite n e f =>
    rw [le_iff_value_le rfl rfl, value_zero] at h
    rw [lt_iff_value_lt rfl rfl, value_zero]
    refine h.lt_of_ne' fun hz => h0 n ?_
    rw [← pack_magUnits n e f, (value_eq_zero_iff n e f).mp hz]
    rfl

/-- A positive number is positive still when multiplied by a datum of at least one: the product cannot round to zero. -/
theorem zero_lt_mul_of_one_le {x y : F32} (hx : x.isFinite = true) (hone : 1 ≤ value x) (hsign : sign x = false)
    (hy : F32.lt F32.zero y = true) : F32.lt F32.zero (x.mul y) = true := by
  cases y with
  | nan n p => cases hy
  | inf n =>
    rw [(inf_mul_of_value_ne_zero n hx (by linarith)).2, hsign, Bool.xor_false]
    exact hy
  | finite n e f =>
    have hpos : 0 < value (.finite n e f) := by rwa [lt_iff_value_lt rfl rfl, value_zero] at hy
    have hround := roundsTo_mul hx (y := .finite n e f) rfl
    have hle : value (.finite n e f) ≤ value x * value (.finite n e f) := le_mul_of_one_le_left hpos.le hone
    generalize x.mul (.finite n e f) = r at hround ⊢
    cases r with
    | nan m p => exact hround.elim
    | inf m =>
      cases m with
      | false => rfl
      | true =>
        have hneg : value x * value (.finite n e f) < 0 := by simpa [roundsTo] using hround.2
        linarith
    | finite m g k =>
      rw [lt_iff_value_lt rfl rfl, value_zero]
      exact hpos.trans_le (le_value_of_roundsTo hround rfl rfl hle)

/-! When the filter is valid (R187, R191, R192). -/

theorem filterValid_eq_warmedUp {s : State} (htau : F32.le F32.zero (opt 0x09 s) = true)
    (hclock : ¬ blind s.par ∨ F32.lt F32.zero s.dcf.since = true) : filterValid s = warmedUp s := by
  have hor : (decide (¬ blind s.par) || F32.lt F32.zero s.dcf.since) = true := by
    rwa [Bool.or_eq_true, decide_eq_true_eq]
  rw [filterValid, htau, hor, Bool.true_and, Bool.true_and]

theorem filterValid_of_not_zero_le {s : State} (htau : F32.le F32.zero (opt 0x09 s) = false) :
    filterValid s = false := by
  rw [filterValid, htau, Bool.false_and, Bool.false_and]

/-- The source's factor makes the threshold of a positive time constant positive. -/
theorem zero_lt_threshold {p : Params} (hp : p.sourceLiterals = true) {tau : F32} (htau : F32.lt F32.zero tau = true) :
    F32.lt F32.zero (p.dcfWarmup.mul tau) = true := by
  simp only [Params.sourceLiterals, Bool.and_eq_true, decide_eq_true_eq] at hp
  obtain ⟨⟨⟨⟨⟨-, hwarmup⟩, -⟩, -⟩, -⟩, -⟩ := hp
  rw [hwarmup]
  exact zero_lt_mul_of_one_le rfl (by norm_num [value_finite, F32.magUnits]) rfl htau

/-- With a positive time constant a warm filter's clock has advanced. -/
theorem zero_lt_since_of_warmedUp {s : State} (hp : s.par.sourceLiterals = true)
    (htau : F32.lt F32.zero (opt 0x09 s) = true) (hwarm : warmedUp s = true) : F32.lt F32.zero s.dcf.since = true := by
  simp only [warmedUp, Bool.and_eq_true] at hwarm
  obtain ⟨⟨⟨hclock, -⟩, -⟩, -⟩ := hwarm
  exact zero_lt_of_zero_lt_of_le (zero_lt_threshold hp htau) hclock

/-- With a positive time constant R192's formula alone decides (log 21). -/
theorem filterValid_of_zero_lt {s : State} (hp : s.par.sourceLiterals = true)
    (htau : F32.lt F32.zero (opt 0x09 s) = true) : filterValid s = warmedUp s := by
  by_cases hwarm : warmedUp s = true
  · exact filterValid_eq_warmedUp (zero_le_of_zero_lt htau) (.inr (zero_lt_since_of_warmedUp hp htau hwarm))
  · rw [filterValid, Bool.eq_false_iff.mpr hwarm, Bool.and_false]

/-- Launch leaves no zero in `dc_calib_tau`, since it leaves the patterns of neither (log 21). -/
theorem opt_tau_resetWith_ne_zero (p : Params) (l : Launch) (n : Bool) :
    opt 0x09 (State.resetWith p l) ≠ .finite n 0 0#23 := by
  intro h
  obtain ⟨hpos, hneg⟩ := l.tauNotZero
  have hbits : l.cfg[9] = F32.toBits (.finite n 0 0#23) := by
    rw [← h]
    exact (toBits_ofBits _).symm
  cases n
  · exact hpos hbits
  · exact hneg hbits

/-- After reset the clock is zero and the time constant is not (spec/70_reset_and_hazards R331). -/
theorem filterValid_resetWith {p : Params} (hp : p.sourceLiterals = true) (l : Launch) :
    filterValid (State.resetWith p l) = false := by
  cases hle : F32.le F32.zero (opt 0x09 (State.resetWith p l)) with
  | false => exact filterValid_of_not_zero_le hle
  | true =>
    have htau := zero_lt_of_zero_le hle (opt_tau_resetWith_ne_zero p l)
    have hcold : ¬ F32.lt F32.zero (State.resetWith p l).dcf.since = true := Bool.eq_false_iff.mp not_zero_lt_zero
    rw [filterValid_of_zero_lt hp htau, Bool.eq_false_iff]
    exact fun hwarm => hcold (zero_lt_since_of_warmedUp hp htau hwarm)

/-! Two or three sensors missing (R187). -/

theorem amps_sanitized_of_unsensed {p : Params} {k : ℕ} (h : p.senseMask.getLsbD k = false) (c : U32) :
    amps p (sanitized p k c) = F32.qnan := by
  rw [sanitized, if_pos (.inl h), amps, if_pos rfl]

theorem exists_isNaN_currents {p : Params} (h : blind p) (adc : Triple U32) :
    ((currents p adc).a.isNaN || (currents p adc).b.isNaN || (currents p adc).c.isNaN) = true := by
  have hinfer : inferred p.senseMask = id := by
    funext i
    simp only [blind, List.mem_cons, List.not_mem_nil, or_false] at h
    rcases h with h | h | h | h <;> rw [h] <;> rfl
  have hmissing : p.senseMask.getLsbD 0 = false ∨ p.senseMask.getLsbD 2 = false := by
    simp only [blind, List.mem_cons, List.not_mem_nil, or_false] at h
    rcases h with h | h | h | h <;> rw [h] <;> decide
  rw [currents, hinfer]
  rcases hmissing with h | h <;> simp [amps_sanitized_of_unsensed h, F32.qnan, F32.isNaN]

/-- No lane can be rebuilt, so that the cycle resets the filter and its clock stands at zero. -/
theorem filterValid_of_blind {s t : State} {adc : Triple U32} (h : blind s.par)
    (ht : t = { s with dcf := filtered (currents s.par adc) s }) : filterValid t = false := by
  have hsince : t.dcf.since = F32.zero := by
    rw [ht]
    simp only [filtered, exists_isNaN_currents h adc, if_true]
  have hpar : t.par = s.par := by rw [ht]
  have hclock : (decide (¬ blind t.par) || F32.lt F32.zero t.dcf.since) = false := by
    rw [hpar, hsince, decide_eq_false (not_not_intro h), not_zero_lt_zero, Bool.or_false]
  rw [filterValid, hclock, Bool.and_false, Bool.false_and]

theorem exec_dcfValid (s : State) : exec .dcfValid s = .next { s with res := .bit (filterValid s) } := by
  rw [← dcfValid_eq]
  rfl

/-- Settles O44: the answer is `filterValid`, which the lemmas above evaluate. -/
theorem filterValidAndCorrect : Obligations.FilterValidAndCorrect := by
  obtain ⟨-, -, hliterals, -⟩ := soundAtReset
  refine ⟨fun s => ⟨exec_dcfValid s, ?_, fun htau hclock => ?_, fun hp htau => ?_, fun htau => ?_⟩,
    fun p l hp => ?_, ?_, fun s t adc h ht => ?_⟩
  · rw [← corrected_eq]
    rfl
  · rw [exec_dcfValid, filterValid_eq_warmedUp htau hclock]
  · rw [exec_dcfValid, filterValid_of_zero_lt hp htau]
  · rw [exec_dcfValid, filterValid_of_not_zero_le htau]
  · rw [exec_dcfValid, filterValid_resetWith hp l]
  · rw [exec_dcfValid, State.reset, filterValid_resetWith hliterals]
  · rw [exec_dcfValid, filterValid_of_blind h ht]

end Sys2Proof.Proofs

/-!
The control laws as operations (spec/43_control_law): what each call moves and answers, exactly, and that it touches no
register of another law (R214).
-/

namespace Sys2Proof.Proofs

open Sys2Proof.Machine Sys2Proof.Claims

/-! The resistance kernel (R220 to R225). -/

/-- The bound is tested on the integrator just moved (R221, m3). -/
theorem measRResult_eq (v ia : F32) (s : State) : measRResult v ia s = answerR v ia s := by
  have hover : overVmax (sampleR ia s) = F32.lt s.rk.vmax (measuredR v ia s).v.abs := rfl
  rw [measRResult, answerR, hover]

/-- Settles O46: by `measR_eq` and `measRResult_eq`, the operands in their latches. -/
theorem resistanceKernel : Obligations.ResistanceKernel := by
  intro s
  refine ⟨rfl, ?_, rfl, rfl⟩
  rw [← measRResult_eq]
  exact congrArg (fun t => Host.Outcome.next (answer (.meas _) t)) (measR_eq s.opnd.vbus s.opnd.amps.a s)

/-! The inductance kernel (R228 to R233). -/

/-- `LAW_OUT.L` reads the bus voltage and moves the test voltage alone (R231). -/
theorem outL_eq (s : State) : outL s = { vbusRead s with lk := flippedL (vbusNow s) s } := by
  rw [outL, flippedL]
  split <;> rfl

/-- Settles O47: by `measL_eq`, `measLResult_eq` and `outL_eq`, the operands in their latches. -/
theorem inductanceKernel : Obligations.InductanceKernel := by
  intro s
  refine ⟨rfl, ?meas, ?out, rfl⟩
  case meas =>
    rw [← measLResult_eq]
    exact congrArg (fun t => Host.Outcome.next (answer (.meas _) t))
      (measL_eq s.opnd.vbus s.opnd.amps.a s.opnd.ts s)
  case out => exact congrArg (fun t => Host.Outcome.next (answer (.out (outLResult s)) t)) (outL_eq s)

/-! The external law (R235 to R237). -/

/-- Settles O48: an event emitted and an answer drawn are field updates, as the statement writes them. -/
theorem externalLawCalls : Obligations.ExternalLawCalls := fun _ => ⟨rfl, rfl, rfl⟩

/-! Each law's own registers (R214). -/

/-- Whichever of three operations answered `t`, it answered its own next state. -/
theorem eq_or_eq_or_eq_of_exec {i j k l : Instr} {s t a b c : State} (hi : i ∈ [j, k, l]) (ht : exec i s = .next t)
    (hj : exec j s = .next a) (hk : exec k s = .next b) (hl : exec l s = .next c) : t = a ∨ t = b ∨ t = c := by
  simp only [List.mem_cons, List.not_mem_nil, or_false] at hi
  obtain rfl | rfl | rfl := hi
  · exact .inl (Host.Outcome.next.inj (ht.symm.trans hj))
  · exact .inr (.inl (Host.Outcome.next.inj (ht.symm.trans hk)))
  · exact .inr (.inr (Host.Outcome.next.inj (ht.symm.trans hl)))

/-- Settles O49: each next state of O46, O47 and O48 is written as an update of the law's own fields. -/
theorem lawOpsOwnRegisters : Obligations.LawOpsOwnRegisters := by
  intro i s t h
  refine ⟨fun hi => ?resistance, fun hi => ?inductance, fun hi => ?external⟩
  case resistance =>
    obtain ⟨hreset, hmeas, hout, -⟩ := resistanceKernel s
    obtain rfl | rfl | rfl := eq_or_eq_or_eq_of_exec hi h hreset hmeas hout <;> exact ⟨rfl, rfl, rfl⟩
  case inductance =>
    obtain ⟨hreset, hmeas, hout, -⟩ := inductanceKernel s
    obtain rfl | rfl | rfl := eq_or_eq_or_eq_of_exec hi h hreset hmeas hout <;> rfl
  case external =>
    obtain ⟨hreset, hmeas, hout⟩ := externalLawCalls s
    obtain rfl | rfl | rfl := eq_or_eq_or_eq_of_exec hi h hreset hmeas hout <;> rfl

end Sys2Proof.Proofs

/-!
The limit and the torque as commands (spec/44_limits): what the evaluation and the query emit, and what each leaves.
-/

namespace Sys2Proof.Proofs

open Sys2Proof.Machine Sys2Proof.Claims

/-! The effective limit (R251). -/

/-- Settles O27: by `effLim_eq` and `evalLim_eq`, the environment being the one the reads leave. -/
theorem effectiveLimit : Obligations.EffectiveLimit := by
  intro s
  refine ⟨(evalLim s).env, ?_⟩
  change Host.Outcome.next (emit (.cmdResult opEvalLim (effLim s).toBits) (evalLim s)) = _
  rw [effLim_eq]
  exact congrArg (fun t => Host.Outcome.next (emit _ t)) (evalLim_eq s)

/-! The torque query (R256). -/

theorem motorType_acim_iff (s : State) : motorType s = .acim ↔ s.cfg.get 0x00 = 2#32 := by
  have hget : s.cfg.get 0x00 = s.cfg[0x00] := rfl
  rw [motorType_eq, hget]
  split_ifs with h0 h1 h2 <;> simp_all

/-- Other machines' torque rests on the cached limit alone. -/
theorem rawTorque_of_not_acim {s : State} (h : motorType s ≠ .acim) :
    rawTorque s = s.lat.iLimEff.mul (opt 0x03 s) := if_neg h

/-- One reading of the flux is both tested and multiplied (log 10). -/
theorem rawTorque_of_acim {s : State} (h : motorType s = .acim) :
    rawTorque s = if F32.le (fluxNow s) F32.zero then F32.zero
      else (s.lat.iLimEff.mul (opt 0x03 s)).mul (fluxNow s) := if_pos h

theorem torqueRead_of_not_acim {s : State} (h : motorType s ≠ .acim) : torqueRead s = s := if_neg h

theorem torqueRead_of_acim {s : State} (h : motorType s = .acim) : torqueRead s = fluxRead s := if_pos h

/-- The ceiling is `torque_lim`; the answer is appended to the stream of the state that has read the flux. -/
theorem exec_maxTorque (s : State) :
    exec .maxTorque s =
      .next (emit (.cmdResult opMaxTorque (F32.min (rawTorque s) (opt 0x02 s)).toBits) (torqueRead s)) := rfl

/-- Settles O28: by the two cases of `rawTorque` and `torqueRead`, `Acim` and every other machine. -/
theorem maxTorqueQuery : Obligations.MaxTorqueQuery := by
  refine fun s => ⟨fun hother => ?other, fun hacim => ?acim⟩
  case other =>
    have hmotor : motorType s ≠ .acim := fun h => hother ((motorType_acim_iff s).mp h)
    rw [exec_maxTorque, rawTorque_of_not_acim hmotor, torqueRead_of_not_acim hmotor]
    rfl
  case acim =>
    have hmotor : motorType s = .acim := (motorType_acim_iff s).mpr hacim
    rw [exec_maxTorque, rawTorque_of_acim hmotor, torqueRead_of_acim hmotor]
    rfl

end Sys2Proof.Proofs

/-!
Calibration and register access as commands (spec/45_calibration): the gains, the start of a measurement, a poll, the
end of a measurement, and the two register commands.
-/

namespace Sys2Proof.Proofs

open Sys2Proof.Machine Sys2Proof.Claims

/-! The gains (R285). -/

theorem whenIdle_of_idle (op : U8) (f : State → State) {s : State} (h : s.cal.state = .idle) : whenIdle op f s = f s :=
  if_pos h

/-- Settles O29: idle, the meaning of `UPD_GAINS` is `gains`. -/
theorem gainsUpdate : Obligations.GainsUpdate := fun _ =>
  ⟨fun hidle => congrArg Host.Outcome.next (whenIdle_of_idle opUpdGains gains hidle),
    fun hbusy => congrArg Host.Outcome.next (whenIdle_of_busy opUpdGains gains hbusy)⟩

/-! The start of a measurement (R274, R279). -/

/-- The kernel just created is as its reset leaves it, so that attaching it writes nothing of it again. -/
theorem startR_setSeq (seq : Bool) (s : State) : startR (setSeq seq s) = rStarted seq s := by
  have hbrake : brakeNow (createR (setSeq seq s)) = brakeNow s := rfl
  rw [startR, armLaw, rStarted, hbrake]
  cases brakeNow s <;> rfl

theorem startL_setSeq (seq : Bool) (s : State) : startL (setSeq seq s) = lStarted seq s := by
  have hbrake : brakeNow (createL (setSeq seq s)) = brakeNow s := rfl
  rw [startL, armLaw, lStarted, hbrake]
  cases brakeNow s <;> rfl

/-- Settles O31: idle, the meaning of either command is the start of its measurement outside a sequence. -/
theorem measurementsStart : Obligations.MeasurementsStart := by
  refine fun s => ⟨fun hidle => ⟨?_, ?_⟩, fun hbusy => ⟨?_, ?_⟩⟩
  · exact congrArg Host.Outcome.next ((whenIdle_of_idle opCalR _ hidle).trans (startR_setSeq false s))
  · exact congrArg Host.Outcome.next ((whenIdle_of_idle opCalL _ hidle).trans (startL_setSeq false s))
  · exact congrArg Host.Outcome.next (whenIdle_of_busy opCalR (fun t => startR (setSeq false t)) hbusy)
  · exact congrArg Host.Outcome.next (whenIdle_of_busy opCalL (fun t => startL (setSeq false t)) hbusy)

/-! `CAL_RUN` (R271, R272). -/

theorem exec_calRun_of_idle {s : State} (h : s.cal.state = .idle) : exec .calRun s = .next (calRunIdle s) :=
  congrArg Host.Outcome.next (whenIdle_of_idle opCalRun calRunIdle h)

theorem motorType_reserved_iff (s : State) : motorType s = .reserved ↔ 3 ≤ (s.cfg.get 0x00).toNat := by
  have hget : s.cfg.get 0x00 = s.cfg[0x00] := rfl
  rw [motorType_eq, hget]
  split_ifs with h0 h1 h2
  · simp [h0]
  · simp [h1]
  · simp [h2]
  · simp only [true_iff]
    bv_omega

theorem calRunIdle_of_gimbal {s : State} (h : motorType s = .gimbal) :
    calRunIdle s = emit (.cmdResult opCalRun 1#32) (setOk true (gains s)) := by rw [calRunIdle_eq, if_pos h]

theorem calRunIdle_of_reserved {s : State} (h : motorType s = .reserved) :
    calRunIdle s = emit (.cmdResult opCalRun 0#32) (setOk false s) := by
  rw [calRunIdle_eq, if_neg (by simp [h]), if_pos h]

theorem calRunIdle_of_measurable {s : State} (hg : motorType s ≠ .gimbal) (hr : motorType s ≠ .reserved) :
    calRunIdle s = rStarted true s := by
  rw [calRunIdle_eq, if_neg hg, if_neg hr, startR_setSeq]

/-- Settles O30: by the three branches of `calRunIdle`, the register's value telling which. -/
theorem calRunByMotorType : Obligations.CalRunByMotorType := by
  refine fun s => ⟨fun hidle => ⟨fun hmeas => ?measurable, fun h1 => ?gimbal, fun h3 => ?reserved⟩,
    fun hbusy => congrArg Host.Outcome.next (whenIdle_of_busy opCalRun calRunIdle hbusy)⟩
  case measurable =>
    have hg : motorType s ≠ .gimbal := by
      rw [Ne, motorType_gimbal_iff]
      rcases hmeas with h | h <;> rw [h] <;> decide
    have hr : motorType s ≠ .reserved := by
      rw [Ne, motorType_reserved_iff]
      rcases hmeas with h | h <;> rw [h] <;> decide
    rw [exec_calRun_of_idle hidle, calRunIdle_of_measurable hg hr]
  case gimbal =>
    rw [exec_calRun_of_idle hidle, calRunIdle_of_gimbal ((motorType_gimbal_iff s).mpr h1)]
    rfl
  case reserved =>
    rw [exec_calRun_of_idle hidle, calRunIdle_of_reserved ((motorType_reserved_iff s).mpr h3)]
    rfl

/-! A poll (R283). -/

theorem calPoll_of_idle {s : State} (h : s.cal.state = .idle) : calPoll s = s := if_pos h

theorem calPoll_of_busy {s : State} (h : s.cal.state ≠ .idle) : calPoll s = pollLoop s := if_neg h

theorem pollCeiling_eq (s : State) : pollCeiling s = ceiling s := by
  unfold pollCeiling ceiling
  cases s.cal.state <;> rfl

/-- The three tests of a poll, in order, as the reason of its exit (R283). -/
theorem pollLoop_eq (s : State) :
    pollLoop s =
      match exitReason s with
      | some r => finish (BitVec.ofNat 2 r) (polled s)
      | none => { polled s with cal := { s.cal with cnt := s.cal.cnt + 1#32 } } := by
  rcases pollLoop_cases s with ⟨hc, heq⟩ | ⟨hc, hr, heq⟩ | ⟨hc, hr, ha, heq⟩ | ⟨hc, hr, ha, heq⟩ <;>
    rw [pollCeiling_eq] at hc <;> simp [exitReason, polled, *]

/-- The reasons are 0, 1 and 2 (R282). -/
theorem exitReason_le_two {s : State} {r : ℕ} (h : exitReason s = some r) : r ≤ 2 := by
  unfold exitReason at h
  split_ifs at h <;> cases h <;> decide

theorem below_of_exitReason_none {s : State} (h : exitReason s = none) : ¬ ceiling s ≤ s.cal.cnt := by
  unfold exitReason at h
  split_ifs at h with hc
  exact hc

theorem polled_of_below {s : State} (h : ¬ ceiling s ≤ s.cal.cnt) : polled s = reqRead s := if_neg h

theorem calPoll_of_wait {s : State} (hbusy : s.cal.state ≠ .idle) (hgo : exitReason s = none) :
    calPoll s = { reqRead s with cal := { s.cal with cnt := s.cal.cnt + 1#32 } } := by
  rw [calPoll_of_busy hbusy, pollLoop_eq, hgo, polled_of_below (below_of_exitReason_none hgo)]

/-- Settles O32: by `calPoll_of_wait`. -/
theorem pollWaits : Obligations.PollWaits := fun _ =>
  ⟨fun hidle => congrArg Host.Outcome.next (calPoll_of_idle hidle),
    fun hbusy hgo => congrArg Host.Outcome.next (calPoll_of_wait hbusy hgo)⟩

/-! The end of a measurement (R276, R281, R282). -/

/-- A poll reads one input at most. -/
theorem polled_eq (s : State) : ∃ e : Env, polled s = { s with env := e } := by
  unfold polled
  split
  · exact ⟨s.env, rfl⟩
  · exact ⟨(reqRead s).env, rfl⟩

theorem polled_par (s : State) : (polled s).par = s.par := by
  obtain ⟨e, he⟩ := polled_eq s
  rw [he]

theorem polled_cal (s : State) : (polled s).cal = s.cal := by
  obtain ⟨e, he⟩ := polled_eq s
  rw [he]

theorem polled_tim (s : State) : (polled s).tim = s.tim := by
  obtain ⟨e, he⟩ := polled_eq s
  rw [he]

theorem resultWord_eq {r : ℕ} (hr : r ≤ 2) (ok : Bool) :
    resultWord (BitVec.ofNat 2 r) ok = BitVec.ofNat 32 (2 * r + ok.toNat) := by
  interval_cases r <;> cases ok <;> rfl

/-- The measurement is concluded after the disarm, so that a raise only records its bit. -/
theorem concludeMeas_disarm (n : Fin 16) (k : ErrorKind) (op : U8) {r : ℕ} (hr : r ≤ 2) (v : F32) (s : State) :
    concludeMeas n.val k op (BitVec.ofNat 2 r) v (measOk v s) (disarm s) = measured n (kindMask k) op r v s := by
  have hwrite : cfgWrite n.val v.toBits (disarm s) = setOption n v.toBits (disarm s) := dif_pos n.isLt
  have hoff : (setOption n v.toBits (disarm s)).safeOff := disarm_safeOff s
  rw [concludeMeas, hwrite, raiseIf_of_safeOff _ k _ hoff, resultWord_eq hr]
  have hout : (disarm s).out ++ [.cmdResult op (BitVec.ofNat 32 (2 * r + (measOk v s).toNat))] =
      s.out ++ brk s ++ [.cmdResult op (BitVec.ofNat 32 (2 * r + (measOk v s).toNat))] := by rw [disarm_out_eq]
  apply state_eq_of_fields
  case h2 => cases hv : v.isFinite <;> simp [measured, hv, setOption, setOk]
  case h11 => exact hout
  all_goals rfl

/-- The poll that ends a resistance measurement (R276). -/
theorem calPoll_of_exit_rWait {s : State} {r : ℕ} (hw : s.cal.state = .rWait) (hr : exitReason s = some r) :
    calPoll s = leaveR s.cal.seq (measOk (resistanceValue s) s)
      (measured 0x05 0x00000001#32 0x11#8 r (resistanceValue s) (polled s)) := by
  obtain ⟨e, he⟩ := polled_eq s
  rw [calPoll_of_busy (by simp [hw]), pollLoop_eq, hr, he]
  have hfinish : finish (BitVec.ofNat 2 r) { s with env := e } = finishR (BitVec.ofNat 2 r) { s with env := e } := by
    rw [finish_eq, if_pos hw]
  exact (hfinish.trans (finishR_eq _ _)).trans
    (congrArg (leaveR _ _)
      (concludeMeas_disarm 0x05 .phaseResistanceOutOfRange opCalR (exitReason_le_two hr) _ { s with env := e }))

/-- The poll that ends an inductance measurement (R281). -/
theorem calPoll_of_exit_lWait {s : State} {r : ℕ} (hw : s.cal.state = .lWait) (hr : exitReason s = some r) :
    calPoll s = leaveL s.cal.seq (measOk (inductanceValue s) s)
      (setCal .idle (measured 0x06 0x00000002#32 0x12#8 r (inductanceValue s) (polled s))) := by
  obtain ⟨e, he⟩ := polled_eq s
  rw [calPoll_of_busy (by simp [hw]), pollLoop_eq, hr, he]
  have hfinish : finish (BitVec.ofNat 2 r) { s with env := e } = finishL (BitVec.ofNat 2 r) { s with env := e } := by
    rw [finish_eq, if_neg (by simp [hw]), if_pos hw]
  exact (hfinish.trans (finishL_eq _ _)).trans
    (congrArg (fun t => leaveL _ _ (setCal .idle t))
      (concludeMeas_disarm 0x06 .phaseInductanceOutOfRange opCalL (exitReason_le_two hr) _ { s with env := e }))

theorem setSeq_of_seq {b : Bool} {s : State} (h : s.cal.seq = b) : setSeq b s = s := by
  rw [setSeq, ← h]

/-- Settles O33: by the three ways `leaveR` goes on. -/
theorem finishResistance : Obligations.FinishResistance := by
  intro s r hw hr v m
  refine congrArg Host.Outcome.next ((calPoll_of_exit_rWait hw hr).trans ?_)
  change leaveR s.cal.seq (s.run.isArmed && v.isFinite) m = _
  have hseqm : m.cal.seq = s.cal.seq := by
    change (polled s).cal.seq = s.cal.seq
    rw [polled_cal]
  have hok : (s.run.isArmed = true ∧ v.isFinite = true) ↔ (s.run.isArmed && v.isFinite) = true := by
    rw [Bool.and_eq_true]
  cases hseq : s.cal.seq with
  | false => rfl
  | true =>
    simp only [hok]
    cases s.run.isArmed && v.isFinite with
    | false => rfl
    | true =>
      have hstart : startL m = lStarted true m := by
        rw [← startL_setSeq, setSeq_of_seq (hseqm.trans hseq)]
      exact hstart

/-- Settles O34: by the two ways `leaveL` ends, the gains being recomputed or not. -/
theorem finishInductance : Obligations.FinishInductance := by
  intro s r hw hr v ok m
  refine congrArg Host.Outcome.next ((calPoll_of_exit_lWait hw hr).trans ?_)
  change leaveL s.cal.seq ok (setCal .idle m) = _
  cases s.cal.seq with
  | false => rfl
  | true => cases ok <;> rfl

/-! `CFG_WR` (R290). -/

theorem toNat_ofNat_fin (n : Fin 16) : (BitVec.ofNat 8 n.val).toNat = n.val := by
  rw [BitVec.toNat_ofNat]
  omega

theorem cfgWrite_eq_setOption (n : Fin 16) (d : U32) (s : State) : cfgWrite n.val d s = setOption n d s :=
  dif_pos n.isLt

theorem setOption_get_self (n : Fin 16) (d : U32) (s : State) : (setOption n d s).cfg.get n = d :=
  Vector.getElem_set_self n.isLt

theorem setOption_get_of_ne {m n : Fin 16} (h : m ≠ n) (d : U32) (s : State) :
    (setOption n d s).cfg.get m = s.cfg.get m :=
  Vector.getElem_set_ne n.isLt m.isLt fun heq => h (Fin.ext heq.symm)

theorem cfgWr_of_legal {sel : U8} {s : State} (hsel : sel.toNat ≤ 0x0F) (hidle : s.cal.state = .idle)
    (hoff : s.run.isArmed = false) (d : U32) : cfgWr sel d s = cfgWrite sel.toNat d s := by
  have haccepted : cfgRefused sel s = false := by simp [cfgRefused, hsel, hidle, hoff]
  rw [cfgWr, haccepted]
  rfl

/-- Settles O35: accepted, the write is that of one element of the registers. -/
theorem cfgWrStores : Obligations.CfgWrStores := by
  refine ⟨fun s n d hidle hoff => ⟨?_, setOption_get_self n d s, fun m hm => setOption_get_of_ne hm d s⟩,
    fun s sel d hground => congrArg Host.Outcome.next (cfgWr_of_illegal hground d)⟩
  have hsel := toNat_ofNat_fin n
  have hwrite := cfgWr_of_legal (sel := BitVec.ofNat 8 n.val) (by omega) hidle hoff d
  rw [hsel, cfgWrite_eq_setOption] at hwrite
  exact congrArg Host.Outcome.next hwrite

/-! `REG_RD` (R291). -/

/-- A field below another in a word. -/
theorem toNat_append_eq_add {m k : ℕ} (x : BitVec m) (y : BitVec k) :
    (x ++ y).toNat = x.toNat * 2 ^ k + y.toNat := by
  rw [BitVec.toNat_append, ← Nat.shiftLeft_add_eq_or_of_lt y.isLt, Nat.shiftLeft_eq]

/-- `STATUS` by its bits (spec/10_state R51). -/
theorem statusWord_eq (s : State) :
    statusWord s = BitVec.ofNat 32
      (s.run.isArmed.toNat + 2 * s.run.countingDown.toNat + 4 * (lawNum s.run.law).toNat + 16 * s.tim.moe.toNat +
        32 * s.tim.aoe.toNat + 64 * s.tim.uif.toNat + 128 * s.tim.dir.toNat + 256 * (calNum s.cal.state).toNat +
        1024 * s.cal.ok.toNat + 2048 * s.cal.seq.toNat + 4096 * s.lk.attached.toNat) := by
  have hvalue : (statusWord s).toNat = s.run.isArmed.toNat + 2 * s.run.countingDown.toNat +
      4 * (lawNum s.run.law).toNat + 16 * s.tim.moe.toNat + 32 * s.tim.aoe.toNat + 64 * s.tim.uif.toNat +
      128 * s.tim.dir.toNat + 256 * (calNum s.cal.state).toNat + 1024 * s.cal.ok.toNat + 2048 * s.cal.seq.toNat +
      4096 * s.lk.attached.toNat := by
    simp only [statusWord, bit1, toNat_append_eq_add, BitVec.toNat_ofBool, BitVec.toNat_ofNat]
    omega
  rw [← hvalue, BitVec.ofNat_toNat, BitVec.setWidth_eq]

/-- The register space by the list of the statement: the options, then the status registers in their order. -/
theorem regRead_eq_registers (s : State) {n : ℕ} (hn : n ≤ 0x2F) :
    regRead (BitVec.ofNat 8 n) s = (registers s)[n]? := by
  by_cases h : n < 16
  · have hsel : (BitVec.ofNat 8 n).toNat = n := toNat_ofNat_fin ⟨n, h⟩
    have hopt : (registers s)[n]? = some s.cfg[n] := by
      rw [registers, List.getElem?_append_left (by simpa using h), Vector.getElem?_toList, Vector.getElem?_eq_getElem h]
    rw [hopt, regRead, dif_pos (hsel.trans_lt h)]
    simp only [hsel]
  · have hlen : s.cfg.toList.length = 16 := Vector.length_toList
    rw [registers, List.getElem?_append_right (by omega), hlen, ← statusWord_eq]
    interval_cases n <;> rfl

theorem registers_length (s : State) : (registers s).length = 0x30 := by simp [registers]

theorem regRd_of_regRead {sel : U8} {v : U32} {s : State} (h : regRead sel s = some v) :
    regRd sel s = emit (.cmdResult opRegRd v) s := by
  rw [regRd_eq, h]
  rfl

/-- Settles O36: by `regRead_eq_registers`; a number above 0x2F names no register. -/
theorem regRdReads : Obligations.RegRdReads := by
  refine ⟨fun s n hn => ?_, fun s sel hsel => congrArg Host.Outcome.next (regRd_of_illegal hsel s)⟩
  obtain ⟨v, hv⟩ : ∃ v, (registers s)[n]? = some v :=
    ⟨_, List.getElem?_eq_getElem (by rw [registers_length]; omega)⟩
  exact ⟨v, hv, congrArg Host.Outcome.next (regRd_of_regRead ((regRead_eq_registers s hn).trans hv))⟩

end Sys2Proof.Proofs

/-!
The end of every calibration (spec/45_calibration R283, R284): polls alone reach it within the ceilings.
-/

namespace Sys2Proof.Proofs

open Sys2Proof.Machine Sys2Proof.Claims

/-! What a poll leaves. -/

theorem leaveR_tim (seq ok : Bool) (t : State) : (leaveR seq ok t).tim = t.tim := by
  unfold leaveR
  split_ifs
  · exact startL_tim t
  · rfl
  · rfl

theorem leaveL_tim (seq ok : Bool) (t : State) : (leaveL seq ok t).tim = t.tim := by
  unfold leaveL
  split_ifs <;> rfl

/-- No timer event happens inside a poll. -/
theorem calPoll_uif (s : State) : (calPoll s).tim.uif = s.tim.uif := by
  by_cases hidle : s.cal.state = .idle
  · rw [calPoll_of_idle hidle]
  · have hpolled : (polled s).tim.uif = s.tim.uif := by rw [polled_tim]
    cases hgo : exitReason s with
    | none => rw [calPoll_of_wait hidle hgo, reqRead_tim]
    | some r =>
      cases hw : s.cal.state with
      | idle => exact absurd hw hidle
      | rWait =>
        rw [calPoll_of_exit_rWait hw hgo, leaveR_tim]
        exact hpolled
      | lWait =>
        rw [calPoll_of_exit_lWait hw hgo, leaveL_tim]
        exact hpolled

/-! How many polls a calibration can still take. -/

/-- In each loop one poll for every sleep below its ceiling and one to end it; after the resistance loop a whole
inductance loop may follow (R282). -/
def pollsLeft (s : State) : ℕ :=
  match s.cal.state with
  | .idle => 0
  | .rWait => (s.par.rCalPolls.toNat + 1 - s.cal.cnt.toNat) + (s.par.lCalPolls.toNat + 1)
  | .lWait => s.par.lCalPolls.toNat + 1 - s.cal.cnt.toNat

theorem pollsLeft_of_idle {s : State} (h : s.cal.state = .idle) : pollsLeft s = 0 := by rw [pollsLeft, h]

theorem pollsLeft_of_rWait {s : State} (h : s.cal.state = .rWait) :
    pollsLeft s = (s.par.rCalPolls.toNat + 1 - s.cal.cnt.toNat) + (s.par.lCalPolls.toNat + 1) := by rw [pollsLeft, h]

theorem pollsLeft_of_lWait {s : State} (h : s.cal.state = .lWait) :
    pollsLeft s = s.par.lCalPolls.toNat + 1 - s.cal.cnt.toNat := by rw [pollsLeft, h]

theorem pollsLeft_le (s : State) : pollsLeft s ≤ (s.par.rCalPolls.toNat + 1) + (s.par.lCalPolls.toNat + 1) := by
  unfold pollsLeft
  split <;> omega

theorem pollsLeft_leaveL {seq ok : Bool} {t : State} (h : t.cal.state = .idle) : pollsLeft (leaveL seq ok t) = 0 := by
  refine pollsLeft_of_idle ?_
  unfold leaveL
  split_ifs <;> exact h

/-- After the resistance loop there is at most the inductance loop. -/
theorem pollsLeft_leaveR_le (seq ok : Bool) {t : State} {p : Params} (h : t.par = p) :
    pollsLeft (leaveR seq ok t) ≤ p.lCalPolls.toNat + 1 := by
  unfold leaveR
  split_ifs
  · rw [pollsLeft_of_lWait rfl, startL_par, h]
    omega
  · exact Nat.zero_le _
  · exact Nat.zero_le _

/-- One more sleep below the ceiling is one poll less to come. -/
theorem pollsLeft_countPoll_lt {s : State} (hbusy : s.cal.state ≠ .idle) (hlt : ¬ ceiling s ≤ s.cal.cnt) :
    pollsLeft (countPoll s) < pollsLeft s := by
  have hlt' : s.cal.cnt.toNat < (ceiling s).toNat := BitVec.lt_def.mp (BitVec.not_le.mp hlt)
  have hpar : (countPoll s).par = s.par := rfl
  have hcnt : (countPoll s).cal.cnt.toNat = s.cal.cnt.toNat + 1 :=
    BitVec.toNat_add_of_lt (by have := (ceiling s).isLt; simp; omega)
  cases hw : s.cal.state with
  | idle => exact absurd hw hbusy
  | rWait =>
    rw [ceiling, if_pos hw] at hlt'
    rw [pollsLeft_of_rWait hw, pollsLeft_of_rWait (s := countPoll s) hw, hcnt, hpar]
    omega
  | lWait =>
    rw [ceiling, if_neg (by simp [hw])] at hlt'
    rw [pollsLeft_of_lWait hw, pollsLeft_of_lWait (s := countPoll s) hw, hcnt, hpar]
    omega

/-- A poll of a running loop uses up one of them: it counts a sleep, or ends the loop. -/
theorem pollsLeft_calPoll_lt {s : State} (h : s.calSound) (hbusy : s.cal.state ≠ .idle) :
    pollsLeft (calPoll s) < pollsLeft s := by
  obtain ⟨-, hrcnt, hlcnt⟩ := h
  cases hgo : exitReason s with
  | none =>
    have hlt := pollsLeft_countPoll_lt hbusy (below_of_exitReason_none hgo)
    rw [calPoll_of_wait hbusy hgo]
    exact hlt
  | some r =>
    cases hw : s.cal.state with
    | idle => exact absurd hw hbusy
    | rWait =>
      have hcnt := BitVec.le_def.mp (hrcnt hw)
      have hle := pollsLeft_leaveR_le s.cal.seq (measOk (resistanceValue s) s)
        (t := measured 0x05 0x00000001#32 0x11#8 r (resistanceValue s) (polled s)) (polled_par s)
      rw [calPoll_of_exit_rWait hw hgo, pollsLeft_of_rWait hw]
      omega
    | lWait =>
      have hcnt := BitVec.le_def.mp (hlcnt hw)
      rw [calPoll_of_exit_lWait hw hgo, pollsLeft_leaveL rfl, pollsLeft_of_lWait hw]
      omega

/-- With none left, the sequencer is idle. -/
theorem idle_of_pollsLeft_eq_zero {s : State} (h : s.calSound) (hleft : pollsLeft s = 0) : s.cal.state = .idle := by
  by_contra hbusy
  have hlt := pollsLeft_calPoll_lt h hbusy
  omega

theorem pollsLeft_calPoll_le {s : State} (h : s.calSound) {k : ℕ} (hleft : pollsLeft s ≤ k + 1) :
    pollsLeft (calPoll s) ≤ k := by
  by_cases hidle : s.cal.state = .idle
  · rw [calPoll_of_idle hidle, pollsLeft_of_idle hidle]
    exact Nat.zero_le k
  · exact Nat.le_of_lt_succ ((pollsLeft_calPoll_lt h hidle).trans_le hleft)

/-! A run of polls. -/

/-- The command word of `CAL_POLL` (spec/30_encoding R96). -/
def pollArrival : Arrival := .cmd48 0x130000000000#48

/-- With no event pending, a poll that arrives runs. -/
theorem step_of_pollArrival {s : State} {rest : List Arrival} (h : s.agenda = pollArrival :: rest)
    (huif : s.tim.uif = false) : step s = .next (calPoll (popped pollArrival rest s)) := by
  have hwait : ¬ mustWait pollArrival s := fun ⟨hpending, _⟩ =>
    absurd (huif.symm.trans hpending) Bool.false_ne_true
  rw [step_of_arrival h hwait, enabled_popped rest (fun _ hw => by cases hw), if_pos rfl]
  rfl

/-- As many polls as are left end the calibration. -/
theorem run_polls (n : ℕ) {s : State} (hsound : s.calSound) (huif : s.tim.uif = false)
    (hagenda : s.agenda = List.replicate n pollArrival) (hleft : pollsLeft s ≤ n) :
    ∃ t : State, Host.Core.run core n s = .next t ∧ t.calSound ∧ t.cal.state = .idle := by
  induction n generalizing s with
  | zero => exact ⟨s, rfl, hsound, idle_of_pollsLeft_eq_zero hsound (Nat.le_zero.mp hleft)⟩
  | succ n ih =>
    have hpopped : (popped pollArrival (List.replicate n pollArrival) s).calSound := calSound_of_eq rfl rfl hsound
    rw [run_succ_of_step (M := core) n (step_of_pollArrival hagenda huif)]
    exact ih (calSound_calPoll hpopped) ((calPoll_uif _).trans huif) (nextState_agenda .calPoll _)
      (pollsLeft_calPoll_le hpopped hleft)

/-- Settles O60: no calibration has more polls left than the two ceilings allow; idle, no sequence runs. -/
theorem calibrationEndsWithinCeilings : Obligations.CalibrationEndsWithinCeilings := by
  intro s n hsound _ huif hagenda hn
  obtain ⟨t, hrun, ht, hidle⟩ := run_polls n hsound huif hagenda ((pollsLeft_le s).trans hn)
  exact ⟨t, hrun, hidle, seq_of_idle ht hidle⟩

end Sys2Proof.Proofs

/-!
The two options that nothing reads (spec/45_calibration R292): that an operation commutes with rewriting such an option,
said once as a predicate that composition and case distinction keep.
-/

namespace Sys2Proof.Proofs

open Sys2Proof.Machine Sys2Proof.Claims

section

variable {n : Fin 16} {v : U32} {f g : State → State}

/-! The predicate. -/

/-- The options 0x0E and 0x0F (spec/10_state R45). -/
abbrev Spare (n : Fin 16) : Prop := 0x0E ≤ n.val

/-- Rewriting option `n` before the operation or after it gives the same state. -/
def Ignores (n : Fin 16) (v : U32) (f : State → State) : Prop := ∀ s, f (setOption n v s) = setOption n v (f s)

namespace Ignores

theorem id : Ignores n v fun s => s := fun _ => rfl

theorem comp (hg : Ignores n v g) (hf : Ignores n v f) : Ignores n v fun s => g (f s) :=
  fun s => (congrArg g (hf s)).trans (hg (f s))

/-- An operation that first reads something of the state, option `n` apart. -/
theorem reading {α : Type} (a : State → α) {f : α → State → State} (ha : ∀ s, a (setOption n v s) = a s)
    (hf : ∀ x, Ignores n v (f x)) : Ignores n v fun s => f (a s) s :=
  fun s => (congrArg (f · (setOption n v s)) (ha s)).trans (hf (a s) s)

/-- A case distinction on anything but option `n`. -/
theorem ite {c : State → Prop} [DecidablePred c] (hc : ∀ s, c (setOption n v s) ↔ c s) (hf : Ignores n v f)
    (hg : Ignores n v g) : Ignores n v fun s => if c s then f s else g s := fun s => by
  simp only [hc]
  split
  · exact hf s
  · exact hg s

end Ignores

/-! What is read of the options (spec/10_state R45): none of the last two. -/

theorem cfg_setOption (hn : Spare n) {k : ℕ} (hk : k < 0x0E) (s : State) :
    (setOption n v s).cfg[k] = s.cfg[k] :=
  Vector.getElem_set_ne n.isLt (by omega) (by omega)

theorem motorType_setOption (hn : Spare n) (s : State) : motorType (setOption n v s) = motorType s := by
  simp only [motorType_eq, cfg_setOption hn (show 0x00 < 0x0E by decide)]

theorem currentLim_setOption (hn : Spare n) (s : State) : currentLim (setOption n v s) = currentLim s :=
  congrArg F32.ofBits (cfg_setOption hn (by decide) s)

theorem dcCalibTau_setOption (hn : Spare n) (s : State) : dcCalibTau (setOption n v s) = dcCalibTau s :=
  congrArg F32.ofBits (cfg_setOption hn (by decide) s)

theorem resistanceCalibMaxVoltage_setOption (hn : Spare n) (s : State) :
    resistanceCalibMaxVoltage (setOption n v s) = resistanceCalibMaxVoltage s :=
  congrArg F32.ofBits (cfg_setOption hn (by decide) s)

theorem dcfValid_setOption (hn : Spare n) (s : State) : dcfValid (setOption n v s) = dcfValid s := by
  simp only [dcfValid, dcCalibTau_setOption hn]
  rfl

theorem corrected_setOption (hn : Spare n) (i : Triple F32) (s : State) :
    Machine.corrected (setOption n v s) i = Machine.corrected s i := by
  simp only [Machine.corrected, dcfValid_setOption hn]
  rfl

theorem filterGain_setOption (hn : Spare n) (s : State) : filterGain (setOption n v s) = filterGain s := by
  simp only [filterGain, dcCalibTau_setOption hn]
  rfl

theorem leakTrips_setOption (hn : Spare n) (s : State) : leakTrips (setOption n v s) = leakTrips s := by
  simp only [leakTrips, iLeakMax, cfg_setOption hn (show 0x0A < 0x0E by decide)]
  rfl

theorem magTrips_setOption (hn : Spare n) (s : State) : magTrips (setOption n v s) = magTrips s := by
  simp only [magTrips, tripLevel, currentLimMargin, cfg_setOption hn (show 0x0D < 0x0E by decide)]
  rfl

theorem ibusTrips_setOption (hn : Spare n) (s : State) : ibusTrips (setOption n v s) = ibusTrips s := by
  simp only [ibusTrips, iBusHardMin, iBusHardMax, cfg_setOption hn (show 0x0B < 0x0E by decide),
    cfg_setOption hn (show 0x0C < 0x0E by decide)]
  rfl

theorem baseLim_setOption (hn : Spare n) (s : State) : baseLim (setOption n v s) = baseLim s := by
  simp only [baseLim, motorType_setOption hn, currentLim_setOption hn]
  rfl

theorem foldLims_setOption (m i : ℕ) (lim : F32) (s : State) :
    foldLims m i lim (setOption n v s) = foldLims m i lim s := by
  induction m generalizing i lim s with
  | zero => rfl
  | succ m ih => exact ih (i + 1) (F32.min lim (limNow i s)) (limRead i s)

theorem maxTorque_setOption (hn : Spare n) (s : State) : maxTorque (setOption n v s) = maxTorque s := by
  simp only [maxTorque, rawTorque, motorType_setOption hn, torqueLim, torqueConstant,
    cfg_setOption hn (show 0x02 < 0x0E by decide), cfg_setOption hn (show 0x03 < 0x0E by decide)]
  rfl

/-! The fault mechanism, the timer and the latch arbiter. -/

theorem ignores_raise (k : ErrorKind) : Ignores n v (raise k) := fun _ => rfl

theorem ignores_raiseIf (b : Bool) (k : ErrorKind) : Ignores n v (raiseIf b k) := by
  cases b
  · exact .id
  · exact ignores_raise k

/-- A fault test that does not look at option `n`. -/
theorem ignores_test {c : State → Bool} (hc : ∀ s, c (setOption n v s) = c s) (k : ErrorKind) :
    Ignores n v fun s => raiseIf (c s) k s :=
  .reading c (f := fun b => raiseIf b k) hc fun b => ignores_raiseIf b k

theorem ignores_timEvents (m : ℕ) : Ignores n v (timEvents m) := by
  induction m with
  | zero => exact .id
  | succ m ih => exact ih.comp (f := timEvent) fun _ => rfl

theorem ignores_timSlot : Ignores n v timSlot :=
  .reading timNow (f := fun m s => timEvents m (timRead s)) (fun _ => rfl) fun m =>
    (ignores_timEvents m).comp (f := timRead) fun _ => rfl

theorem ignores_testInterlock : Ignores n v testInterlock :=
  .reading brakeNow (f := fun b s => raiseIf (!b) .brakeResistorDisarmed (brakeRead s)) (fun _ => rfl) fun _ =>
    (ignores_raiseIf _ _).comp (f := brakeRead) fun _ => rfl

theorem ignores_setAoe (t : Bool) : Ignores n v (setAoe t) :=
  .ite (c := fun s => (!t && s.run.isArmed) = true) (fun _ => Iff.rfl) (fun _ => rfl) .id

theorem ignores_testLate : Ignores n v testLate := ignores_test (c := fun s => s.tim.uif) (fun _ => rfl) _

theorem ignores_latchPwm (c : Triple U16) (t : Bool) : Ignores n v (latchPwm c t) := by
  have hslot : Ignores n v timSlot := ignores_timSlot
  have ha : Ignores n v (writeShA c.a) := fun _ => rfl
  have hb : Ignores n v (writeShB c.b) := fun _ => rfl
  have hc : Ignores n v (writeShC c.c) := fun _ => rfl
  exact ignores_testLate.comp <| hslot.comp <| (ignores_setAoe t).comp <| hslot.comp <| hc.comp <| hslot.comp <|
    hb.comp <| hslot.comp <| ha.comp <| hslot.comp <| ignores_testInterlock.comp hslot

/-! The control laws and the arm. -/

theorem ignores_measR (vbus ia : F32) : Ignores n v (measR vbus ia) :=
  .ite (c := fun s => overVmax (sampleR ia s) = true) (fun _ => Iff.rfl) (fun _ => rfl) <|
    .ite (c := fun _ => vbus.isNaN = true) (fun _ => Iff.rfl) (fun _ => rfl) fun _ => rfl

theorem ignores_measL (vbus ia : F32) (ts : U32) : Ignores n v (measL vbus ia ts) :=
  .ite (c := fun _ => unusableL vbus ia = true) (fun _ => Iff.rfl) .id fun _ => rfl

theorem ignores_lawMeas (l : LawSel) (vbus : F32) (i : Triple F32) (ts : U32) : Ignores n v (lawMeas l vbus i ts) := by
  cases l with
  | none => exact .id
  | rmeas => exact ignores_measR vbus i.a
  | lmeas => exact ignores_measL vbus i.a ts
  | ext => exact fun _ => rfl

theorem ignores_outL : Ignores n v outL :=
  .ite (c := fun s => (vbusNow s).isNaN = true) (fun _ => Iff.rfl) (fun _ => rfl) fun _ => rfl

theorem ignores_lawOut (l : LawSel) (ts : U32) : Ignores n v (lawOut l ts) := by
  cases l with
  | none | rmeas => exact .id
  | lmeas => exact ignores_outL
  | ext => exact fun _ => rfl

theorem lawOutResult_setOption (l : LawSel) (s : State) : lawOutResult l (setOption n v s) = lawOutResult l s := by
  cases l <;> rfl

theorem ignores_armLaw (l : LawSel) : Ignores n v (armLaw l) :=
  .ite (c := fun s => brakeNow s = true) (fun _ => Iff.rfl) (fun _ => by cases l <;> rfl) fun _ => rfl

theorem ignores_armCmd (sel : U8) : Ignores n v (armCmd sel) := by
  unfold armCmd
  split
  · exact ignores_armLaw _
  · exact fun _ => rfl

theorem ignores_disarmErrCmd (sel : U8) : Ignores n v (disarmErrCmd sel) := by
  unfold disarmErrCmd
  split
  · exact ignores_raise _
  · exact fun _ => rfl

/-! Acquisition and limits. -/

theorem ignores_sanFault (adc : Triple U32) : Ignores n v (sanFault adc) :=
  .reading State.par (f := fun p s =>
      raiseIf (saturates p (sensedC p) adc.c) .currentSenseSaturation
        (raiseIf (saturates p (sensedB p) adc.b) .currentSenseSaturation
          (raiseIf (saturates p (sensedA p) adc.a) .currentSenseSaturation s)))
    (fun _ => rfl) fun _ => (ignores_raiseIf _ _).comp ((ignores_raiseIf _ _).comp (ignores_raiseIf _ _))

theorem ignores_filterUpdate (hn : Spare n) (i : Triple F32) : Ignores n v (filterUpdate i) := by
  refine .ite (c := fun _ => anyNaN i = true) (fun _ => Iff.rfl) (fun _ => rfl) fun s => ?_
  simp only [filterGain_setOption hn]
  rfl

theorem ignores_leakCheck (hn : Spare n) : Ignores n v leakCheck := ignores_test (leakTrips_setOption hn) _
theorem ignores_magCheck (hn : Spare n) : Ignores n v magCheck := ignores_test (magTrips_setOption hn) _
theorem ignores_ibusCheck (hn : Spare n) : Ignores n v ibusCheck := ignores_test (ibusTrips_setOption hn) _

theorem ignores_baseLimRead (hn : Spare n) : Ignores n v baseLimRead :=
  .ite (c := fun s => motorType s = .gimbal) (fun s => by rw [motorType_setOption hn]) (fun _ => rfl) .id

theorem effLim_setOption (hn : Spare n) (s : State) : effLim (setOption n v s) = effLim s := by
  rw [effLim, baseLim_setOption hn, ignores_baseLimRead hn, foldLims_setOption]
  rfl

theorem ignores_readLims (m i : ℕ) : Ignores n v (readLims m i) := by
  induction m generalizing i with
  | zero => exact .id
  | succ m ih => exact (ih (i + 1)).comp (f := limRead i) fun _ => rfl

theorem ignores_evalLim (hn : Spare n) : Ignores n v evalLim :=
  .reading (fun s => (effLim s, s.par.nLim)) (f := fun x s => cacheLim x.1 (readLims x.2 0 (baseLimRead s)))
    (fun s => by rw [effLim_setOption hn]; rfl) fun x =>
      Ignores.comp (g := cacheLim x.1) (fun _ => rfl) ((ignores_readLims x.2 0).comp (ignores_baseLimRead hn))

theorem ignores_torqueRead (hn : Spare n) : Ignores n v torqueRead :=
  .ite (c := fun s => motorType s = .acim) (fun s => by rw [motorType_setOption hn]) (fun _ => rfl) .id

/-! The update cycle. -/

theorem ignores_latchCurrents (hn : Spare n) (i : Triple F32) : Ignores n v (latchCurrents i) := fun s => by
  simp only [latchCurrents, corrected_setOption hn]
  rfl

theorem ignores_superviseCheck : Ignores n v superviseCheck :=
  .ite (c := fun s => supNow s = true) (fun _ => Iff.rfl) (fun _ => rfl) fun _ => rfl

theorem ignores_raiseMeas (r : MeasResult) : Ignores n v (raiseMeas r) := by
  cases r with
  | success => exact .id
  | err k => exact ignores_raise k

theorem fedResult_setOption (s : State) : fedResult (setOption n v s) = fedResult s := by
  have h : ∀ l u i t, lawMeasResult l u i (setOption n v t) = lawMeasResult l u i t := fun l u i t => by cases l <;> rfl
  exact h _ _ _ (vbusRead s)

theorem ignores_fed : Ignores n v fed :=
  .reading (fun s => (s.run.law, vbusNow s, s.lat.iMeas, s.run.ts))
    (f := fun x s => lawMeas x.1 x.2.1 x.2.2.1 x.2.2.2 (vbusRead s)) (fun _ => rfl) fun _ =>
      (ignores_lawMeas _ _ _ _).comp (f := vbusRead) fun _ => rfl

theorem ignores_feedLaw : Ignores n v feedLaw := by
  rw [funext feedLaw_eq]
  exact .ite (fun _ => Iff.rfl) .id <|
    .reading fedResult (f := fun r s => raiseMeas r (fed s)) fedResult_setOption fun r =>
      (ignores_raiseMeas r).comp ignores_fed

theorem ignores_senseBody (hn : Spare n) (i : Triple F32) : Ignores n v (senseBody i) :=
  ignores_feedLaw.comp <| (ignores_magCheck hn).comp <| (ignores_evalLim hn).comp <|
    ignores_superviseCheck.comp <| (ignores_leakCheck hn).comp (ignores_latchCurrents hn i)

theorem ignores_commitResult (r : Option OutResult) : Ignores n v (commitResult r) := by
  cases r with
  | none => exact .id
  | some r =>
    cases r with
    | duty d =>
      exact .ite (c := fun _ => validDuty d = true) (fun _ => Iff.rfl)
        (.reading State.par (f := fun p => latchPwm (dutyCodes p d) false) (fun _ => rfl)
          fun _ => ignores_latchPwm _ _)
        (ignores_raise _)
    | err k => exact .ite (c := fun s => tolerated k s = true) (fun _ => Iff.rfl) .id (ignores_raise k)

theorem ignores_commitTail (hn : Spare n) (r : Option OutResult) : Ignores n v (commitTail r) :=
  .reading (resultBus r) (f := fun ibus t => ibusCheck (latchBus ibus (commitResult r t))) (fun _ => rfl) fun ibus =>
    (ignores_ibusCheck hn).comp <| Ignores.comp (g := latchBus ibus) (fun _ => rfl) (ignores_commitResult r)

/-- c1 to c7 of `COMMIT_BODY`, after the filter update. -/
theorem ignores_commit (hn : Spare n) :
    Ignores n v fun t => commitTail (lawOutResult t.run.law t) (lawOut t.run.law (lookAheadTs t) t) :=
  .reading (fun t => lawOutResult t.run.law t) (f := fun r t => commitTail r (lawOut t.run.law (lookAheadTs t) t))
    (fun t => lawOutResult_setOption t.run.law t) fun r =>
      (ignores_commitTail hn r).comp <|
        .reading (fun t => (t.run.law, lookAheadTs t)) (f := fun x => lawOut x.1 x.2) (fun _ => rfl)
          fun _ => ignores_lawOut _ _

theorem ignores_runRole (hn : Spare n) (role : Role) (adc : Triple U32) : Ignores n v (runRole role adc) := by
  cases role with
  | sense =>
    exact .reading State.par (f := fun p s => senseBody (phaseCurrents p adc) (sanFault adc s))
      (fun _ => rfl) fun _ => (ignores_senseBody hn _).comp (ignores_sanFault adc)
  | commit =>
    exact .reading State.par
      (f := fun p s => commitBody (phaseCurrents p adc) (sanFault adc (latchPwm ⟨p.half, p.half, p.half⟩ true s)))
      (fun _ => rfl) fun _ =>
        ((ignores_commit hn).comp (ignores_filterUpdate hn _)).comp <|
          (ignores_sanFault adc).comp (ignores_latchPwm _ _)

theorem ignores_directCycle (hn : Spare n) (adc : Triple U32) : Ignores n v (directCycle adc) :=
  .ite (c := fun s => s.tim.dir = s.run.countingDown) (fun _ => Iff.rfl) (ignores_raise _) <|
    .reading (fun s => s.tim.dir) (f := fun d s => runRole (roleOf d) adc (setDirection d s)) (fun _ => rfl) fun d =>
      (ignores_runRole hn _ adc).comp (f := setDirection d) fun _ => rfl

theorem ignores_updCycle (hn : Spare n) (adc : Triple U32) : Ignores n v (updCycle adc) :=
  (ignores_directCycle hn adc).comp <| ignores_timSlot.comp (f := beginCycle) fun _ => rfl

/-! Calibration and register access. -/

theorem ignores_gains (hn : Spare n) : Ignores n v gains := fun s => by
  simp only [gains, currentControlBandwidth, phaseInductance, phaseResistance,
    cfg_setOption hn (show 0x04 < 0x0E by decide), cfg_setOption hn (show 0x05 < 0x0E by decide),
    cfg_setOption hn (show 0x06 < 0x0E by decide)]
  rfl

theorem ignores_startR (hn : Spare n) : Ignores n v startR := by
  have hcreate : Ignores n v createR := fun s => by
    simp only [createR, calibrationCurrent, cfg_setOption hn (show 0x07 < 0x0E by decide),
      resistanceCalibMaxVoltage_setOption hn]
    rfl
  exact Ignores.comp (g := enterWait .rWait) (fun _ => rfl) ((ignores_armLaw .rmeas).comp hcreate)

theorem ignores_startL (hn : Spare n) : Ignores n v startL := by
  have hcreate : Ignores n v createL := fun s => by
    simp only [createL, lTestV, resistanceCalibMaxVoltage_setOption hn]
    rfl
  exact Ignores.comp (g := enterWait .lWait) (fun _ => rfl) ((ignores_armLaw .lmeas).comp hcreate)

/-- Writes of two registers may be exchanged. -/
theorem ignores_cfgWrite {m : ℕ} (hm : m ≠ n.val) (d : U32) : Ignores n v (cfgWrite m d) := by
  intro s
  by_cases h : m < 16
  · simp only [cfgWrite, dif_pos h, setOption, Vector.set_comm _ _ hm.symm]
  · simp only [cfgWrite, dif_neg h]

theorem ignores_concludeMeas {reg : ℕ} (hreg : reg ≠ n.val) (k : ErrorKind) (op : U8) (reason : BitVec 2) (x : F32)
    (ok : Bool) : Ignores n v (concludeMeas reg k op reason x ok) :=
  Ignores.comp (g := fun s => emit (.cmdResult op (resultWord reason ok)) (setOk ok s)) (fun _ => rfl) <|
    (ignores_raiseIf _ k).comp (ignores_cfgWrite hreg _)

theorem ignores_leaveR (hn : Spare n) (seq ok : Bool) : Ignores n v (leaveR seq ok) :=
  .ite (c := fun _ => (seq && ok) = true) (fun _ => Iff.rfl) (ignores_startL hn) <|
    .ite (c := fun _ => seq = true) (fun _ => Iff.rfl) (fun _ => rfl) fun _ => rfl

theorem ignores_leaveL (hn : Spare n) (seq ok : Bool) : Ignores n v (leaveL seq ok) :=
  .ite (c := fun _ => seq = true) (fun _ => Iff.rfl)
    (Ignores.comp (g := emit (.cmdResult opCalRun (bitWord ok))) (fun _ => rfl) <|
      .ite (c := fun _ => ok = true) (fun _ => Iff.rfl)
        ((ignores_gains hn).comp (f := setSeq false) fun _ => rfl) fun _ => rfl)
    .id

theorem ignores_finishR (hn : Spare n) (reason : BitVec 2) : Ignores n v (finishR reason) :=
  .reading (fun s => (s.cal.seq, resistanceValue s, measOk (resistanceValue s) s))
    (f := fun x s => leaveR x.1 x.2.2
      (concludeMeas 0x05 .phaseResistanceOutOfRange opCalR reason x.2.1 x.2.2 (disarm s)))
    (fun _ => rfl) fun _ =>
      (ignores_leaveR hn _ _).comp <| (ignores_concludeMeas (by omega) _ _ _ _ _).comp (f := disarm) fun _ => rfl

theorem ignores_finishL (hn : Spare n) (reason : BitVec 2) : Ignores n v (finishL reason) :=
  .reading (fun s => (s.cal.seq, inductanceValue s, measOk (inductanceValue s) s))
    (f := fun x s => leaveL x.1 x.2.2
      (setCal .idle (concludeMeas 0x06 .phaseInductanceOutOfRange opCalL reason x.2.1 x.2.2 (disarm s))))
    (fun _ => rfl) fun _ =>
      (ignores_leaveL hn _ _).comp <| Ignores.comp (g := setCal .idle) (fun _ => rfl) <|
        (ignores_concludeMeas (by omega) _ _ _ _ _).comp (f := disarm) fun _ => rfl

theorem ignores_finish (hn : Spare n) (reason : BitVec 2) : Ignores n v (finish reason) := by
  rw [funext (finish_eq reason)]
  exact .ite (fun _ => Iff.rfl) (ignores_finishR hn reason) <| .ite (fun _ => Iff.rfl) (ignores_finishL hn reason) .id

theorem ignores_pollLoop (hn : Spare n) : Ignores n v pollLoop := by
  have hread : Ignores n v reqRead := fun _ => rfl
  exact .ite (c := fun s => pollCeiling s ≤ s.cal.cnt) (fun _ => Iff.rfl) (ignores_finish hn _) <|
    .ite (c := fun s => reqNow s = true) (fun _ => Iff.rfl) ((ignores_finish hn _).comp hread) <|
      .ite (c := fun s => (!s.run.isArmed) = true) (fun _ => Iff.rfl) ((ignores_finish hn _).comp hread) fun _ => rfl

theorem ignores_calPoll (hn : Spare n) : Ignores n v calPoll :=
  .ite (c := fun s => s.cal.state = .idle) (fun _ => Iff.rfl) .id (ignores_pollLoop hn)

theorem ignores_whenIdle (op : U8) (hf : Ignores n v f) : Ignores n v (whenIdle op f) :=
  .ite (c := fun s => s.cal.state = .idle) (fun _ => Iff.rfl) hf fun _ => rfl

theorem ignores_calRunIdle (hn : Spare n) : Ignores n v calRunIdle := by
  rw [funext calRunIdle_eq]
  exact .ite (fun s => by rw [motorType_setOption hn])
    (Ignores.comp (g := fun s => emit (.cmdResult opCalRun 1#32) (setOk true s)) (fun _ => rfl) (ignores_gains hn)) <|
    .ite (fun s => by rw [motorType_setOption hn]) (fun _ => rfl) <|
      (ignores_startR hn).comp (f := setSeq true) fun _ => rfl

theorem ignores_cfgWr {sel : U8} (hsel : sel.toNat ≠ n.val) (d : U32) : Ignores n v (cfgWr sel d) :=
  .ite (c := fun s => cfgRefused sel s = true) (fun _ => Iff.rfl) (fun _ => rfl) (ignores_cfgWrite hsel d)

/-- Only the read of the register itself shows what was written to it. -/
theorem regRead_setOption {sel : U8} (hsel : sel.toNat ≠ n.val) (s : State) :
    regRead sel (setOption n v s) = regRead sel s := by
  by_cases h : sel.toNat < 16
  · have hget : (setOption n v s).cfg[sel.toNat] = s.cfg[sel.toNat] := Vector.getElem_set_ne n.isLt h hsel.symm
    rw [regRead, regRead, dif_pos h, dif_pos h, hget]
  · rw [regRead, regRead, dif_neg h, dif_neg h]
    rfl

theorem ignores_regRd {sel : U8} (hsel : sel.toNat ≠ n.val) : Ignores n v (regRd sel) := by
  rw [funext (regRd_eq sel)]
  refine .reading (regRead sel) (f := answerRead) (regRead_setOption hsel) fun r => ?_
  cases r <;> exact fun _ => rfl

/-! Every operation. -/

/-- A command that emits what it reads of the state, option `n` apart. -/
theorem ignores_emitting (e : State → Event) (he : ∀ s, e (setOption n v s) = e s) (hf : Ignores n v f) :
    Ignores n v fun s => emit (e s) (f s) :=
  .reading e (f := fun x s => emit x (f s)) he fun x => Ignores.comp (g := emit x) (fun _ => rfl) hf

/-- A micro-operation stepped alone that answers what it reads of the state, option `n` apart. -/
theorem ignores_answering (r : State → MicroResult) (hr : ∀ s, r (setOption n v s) = r s) (hf : Ignores n v f) :
    Ignores n v fun s => answer (r s) (f s) :=
  .reading r (f := fun x s => answer x (f s)) hr fun x => Ignores.comp (g := answer x) (fun _ => rfl) hf

/-- A micro-operation stepped alone takes its operands from the latches (log 7). -/
theorem ignores_ofLatches {f : Operands → State → State} (hf : ∀ o, Ignores n v (f o)) :
    Ignores n v fun s => f s.opnd s :=
  .reading State.opnd (fun _ => rfl) hf

/-- Every operation but the two that name the register (R292). -/
theorem ignores_nextState (hn : Spare n) {i : Instr} (hwr : ∀ d, i ≠ .cfgWr (BitVec.ofNat 8 n.val) d)
    (hrd : i ≠ .regRd (BitVec.ofNat 8 n.val)) : Ignores n v (nextState i) := by
  have hother : ∀ {sel : U8}, sel ≠ BitVec.ofNat 8 n.val → sel.toNat ≠ n.val := fun hsel h =>
    hsel (BitVec.eq_of_toNat_eq (h.trans (toNat_ofNat_fin n).symm))
  cases i with
  | cfgWr sel d => exact ignores_cfgWr (hother fun h => hwr d (congrArg (Instr.cfgWr · d) h)) d
  | regRd sel => exact ignores_regRd (hother fun h => hrd (congrArg _ h))
  | arm sel => exact ignores_armCmd sel
  | disarmErr sel => exact ignores_disarmErrCmd sel
  | evalLim =>
    exact ignores_emitting (fun s => .cmdResult opEvalLim (effLim s).toBits) (fun s => by rw [effLim_setOption hn])
      (ignores_evalLim hn)
  | maxTorque =>
    exact ignores_emitting (fun s => .cmdResult opMaxTorque (maxTorque s).toBits)
      (fun s => by rw [maxTorque_setOption hn]) (ignores_torqueRead hn)
  | updGains => exact ignores_whenIdle _ (ignores_gains hn)
  | calRun => exact ignores_whenIdle _ (ignores_calRunIdle hn)
  | calR => exact ignores_whenIdle _ ((ignores_startR hn).comp (f := setSeq false) fun _ => rfl)
  | calL => exact ignores_whenIdle _ ((ignores_startL hn).comp (f := setSeq false) fun _ => rfl)
  | calPoll => exact ignores_calPoll hn
  | upd a b c => exact ignores_updCycle hn ⟨a, b, c⟩
  | applyPwm => exact ignores_ofLatches fun o => ignores_latchPwm o.codes o.tentative
  | sanitize =>
    exact ignores_answering (fun s => .codes (sanCodes s.par s.opnd.adc)) (fun _ => rfl)
      (ignores_ofLatches fun o => ignores_sanFault o.adc)
  | dcfUpdate => exact ignores_ofLatches fun o => ignores_filterUpdate hn o.amps
  | dcfValid =>
    exact ignores_answering (fun s => .bit (dcfValid s)) (fun s => by rw [dcfValid_setOption hn]) .id
  | correct =>
    exact ignores_answering (fun s => .currents (Machine.corrected s s.opnd.amps))
      (fun s => congrArg MicroResult.currents (corrected_setOption hn _ s)) .id
  | leakChk => exact ignores_leakCheck hn
  | magChk => exact ignores_magCheck hn
  | ibusChk => exact ignores_ibusCheck hn
  | lawMeasR =>
    exact ignores_answering (fun s => .meas (measRResult s.opnd.vbus s.opnd.amps.a s)) (fun _ => rfl)
      (ignores_ofLatches fun o => ignores_measR o.vbus o.amps.a)
  | lawMeasL =>
    exact ignores_answering (fun s => .meas (measLResult s.opnd.vbus s.opnd.amps.a)) (fun _ => rfl)
      (ignores_ofLatches fun o => ignores_measL o.vbus o.amps.a o.ts)
  | lawOutL => exact ignores_answering (fun s => .out (outLResult s)) (fun _ => rfl) ignores_outL
  | nop | disarm | clrErr | getR | getL | timEvent | adc2amp | infer | duty2ccr | lawResetR | lawOutR | lawResetL
  | lawResetX | lawMeasX | lawOutX => exact fun _ => rfl

end

/-- Settles O21: an operation answers its next state, and every one but the two named ignores the register. -/
theorem inertOptions : Obligations.InertOptions := by
  intro n v i s hn hwr hrd
  have hspare : Spare n := by rcases hn with rfl | rfl <;> decide
  rw [exec_eq_nextState, exec_eq_nextState, ignores_nextState hspare hwr hrd s]
  rfl

end Sys2Proof.Proofs

/-!
What a command leaves of the datapath (spec/70_reset_and_hazards R351): said once, as a relation that every operation
with a command word is in.
-/

namespace Sys2Proof.Proofs

open Sys2Proof.Machine Sys2Proof.Claims

/-! The relation. -/

/-- The fields that no command writes. -/
def datapath (s : State) :
    (Params × U32 × Bool × Filter) × (Triple F32 × F32 × F32) × (Triple U16 × Triple U16 × Bool × Bool) :=
  ((s.par, s.run.ts, s.run.countingDown, s.dcf), (s.lat.iMeas, s.lat.iLeak, s.lat.iBus),
    (s.tim.ccrSh, s.tim.ccrAct, s.tim.uif, s.tim.dir))

/-- From `s` to `t` the datapath stands, and neither the enable nor its latch becomes set. -/
structure LeavesDatapath (s t : State) : Prop where
  data : datapath t = datapath s
  moe : t.tim.moe = true → s.tim.moe = true
  aoe : t.tim.aoe = true → s.tim.aoe = true

namespace LeavesDatapath

theorem of_eq {s t : State} (hdata : datapath t = datapath s := by rfl) (htim : t.tim = s.tim := by rfl) :
    LeavesDatapath s t := ⟨hdata, by rw [htim]; exact id, by rw [htim]; exact id⟩

theorem refl (s : State) : LeavesDatapath s s := of_eq

theorem trans {s t u : State} (h : LeavesDatapath s t) (h' : LeavesDatapath t u) : LeavesDatapath s u :=
  ⟨h'.data.trans h.data, h.moe ∘ h'.moe, h.aoe ∘ h'.aoe⟩

end LeavesDatapath

/-! Disarm, fault entry and arm. -/

/-- A disarm writes the timer only to clear the enable and its latch (spec/41_arm_commit R157). -/
theorem leavesDatapath_disarm (s : State) : LeavesDatapath s (disarm s) where
  data := rfl
  moe h := absurd h Bool.false_ne_true
  aoe h := absurd h Bool.false_ne_true

theorem leavesDatapath_raise (k : ErrorKind) (s : State) : LeavesDatapath s (raise k s) :=
  LeavesDatapath.trans (t := withError (s.run.error ||| kindMask k) s) .of_eq (leavesDatapath_disarm _)

theorem leavesDatapath_raiseIf (c : Bool) (k : ErrorKind) (s : State) : LeavesDatapath s (raiseIf c k s) := by
  cases c
  · exact .refl s
  · exact leavesDatapath_raise k s

theorem leavesDatapath_disarmErrCmd (sel : U8) (s : State) : LeavesDatapath s (disarmErrCmd sel s) := by
  unfold disarmErrCmd
  split
  · exact leavesDatapath_raise _ s
  · exact .of_eq

/-- An arm attaches a law and sets no latch: that is left to a commit (spec/41_arm_commit R150). -/
theorem leavesDatapath_armLaw (l : LawSel) (s : State) : LeavesDatapath s (armLaw l s) := by
  rcases armLaw_cases l s with ⟨-, heq⟩ | ⟨-, heq⟩ <;> rw [heq]
  · exact .of_eq (by simp [datapath]) (by simp)
  · exact .of_eq

theorem leavesDatapath_armCmd (sel : U8) (s : State) : LeavesDatapath s (armCmd sel s) := by
  unfold armCmd
  split
  · exact leavesDatapath_armLaw _ s
  · exact .of_eq

/-! The queries and the registers. -/

/-- A limit evaluation latches the limit alone (spec/44_limits R251). -/
theorem leavesDatapath_evalLim (s : State) : LeavesDatapath s (evalLim s) :=
  .of_eq (by simp [datapath]) (evalLim_tim s)

theorem leavesDatapath_torqueRead (s : State) : LeavesDatapath s (torqueRead s) :=
  .of_eq (by simp [datapath]) (torqueRead_tim s)

theorem leavesDatapath_cfgWrite (n : ℕ) (v : U32) (s : State) : LeavesDatapath s (cfgWrite n v s) :=
  .of_eq (by simp [datapath]) (cfgWrite_tim n v s)

theorem leavesDatapath_cfgWr (sel : U8) (data : U32) (s : State) : LeavesDatapath s (cfgWr sel data s) := by
  unfold cfgWr
  split
  · exact .of_eq
  · exact leavesDatapath_cfgWrite _ _ s

theorem leavesDatapath_regRd (sel : U8) (s : State) : LeavesDatapath s (regRd sel s) := by
  unfold regRd
  split <;> exact .of_eq

/-! Calibration (spec/45_calibration). -/

theorem leavesDatapath_whenIdle (op : U8) {f : State → State} (hf : ∀ s, LeavesDatapath s (f s)) (s : State) :
    LeavesDatapath s (whenIdle op f s) := by
  unfold whenIdle
  split
  · exact hf s
  · exact .of_eq

theorem leavesDatapath_startR (s : State) : LeavesDatapath s (startR s) :=
  LeavesDatapath.trans (t := createR s) .of_eq ((leavesDatapath_armLaw _ _).trans .of_eq)

theorem leavesDatapath_startL (s : State) : LeavesDatapath s (startL s) :=
  LeavesDatapath.trans (t := createL s) .of_eq ((leavesDatapath_armLaw _ _).trans .of_eq)

theorem leavesDatapath_calRunIdle (s : State) : LeavesDatapath s (calRunIdle s) := by
  rw [calRunIdle_eq]
  split_ifs
  · exact .of_eq
  · exact .of_eq
  · exact LeavesDatapath.trans (t := setSeq true s) .of_eq (leavesDatapath_startR _)

theorem leavesDatapath_concludeMeas (reg : ℕ) (k : ErrorKind) (op : U8) (reason : BitVec 2) (v : F32) (ok : Bool)
    (s : State) : LeavesDatapath s (concludeMeas reg k op reason v ok s) :=
  ((leavesDatapath_cfgWrite reg v.toBits s).trans (leavesDatapath_raiseIf _ _ _)).trans .of_eq

theorem leavesDatapath_leaveR (seq ok : Bool) (s : State) : LeavesDatapath s (leaveR seq ok s) := by
  unfold leaveR
  split_ifs
  · exact leavesDatapath_startL s
  · exact .of_eq
  · exact .of_eq

theorem leavesDatapath_leaveL (seq ok : Bool) (s : State) : LeavesDatapath s (leaveL seq ok s) := by
  unfold leaveL
  split_ifs <;> exact .of_eq

/-- A measurement ends with a disarm, and arms again at most for the next one (R276, R281). -/
theorem leavesDatapath_finish (reason : BitVec 2) (s : State) : LeavesDatapath s (finish reason s) := by
  have hidle : ∀ x, LeavesDatapath x (setCal .idle x) := fun _ => .of_eq
  rw [finish_eq]
  split_ifs
  · rw [finishR_eq]
    exact (leavesDatapath_disarm s).trans <| (leavesDatapath_concludeMeas _ _ _ _ _ _ _).trans <|
      leavesDatapath_leaveR _ _ _
  · rw [finishL_eq]
    exact (leavesDatapath_disarm s).trans <| (leavesDatapath_concludeMeas _ _ _ _ _ _ _).trans <|
      (hidle _).trans (leavesDatapath_leaveL _ _ _)
  · exact .refl s

theorem leavesDatapath_calPoll (s : State) : LeavesDatapath s (calPoll s) := by
  have hread : LeavesDatapath s (reqRead s) := .of_eq
  unfold calPoll
  split
  · exact .refl s
  · rcases pollLoop_cases s with ⟨-, heq⟩ | ⟨-, -, heq⟩ | ⟨-, -, -, heq⟩ | ⟨-, -, -, heq⟩ <;> rw [heq]
    · exact leavesDatapath_finish _ s
    · exact hread.trans (leavesDatapath_finish _ _)
    · exact hread.trans (leavesDatapath_finish _ _)
    · exact .of_eq

/-! Every command. -/

/-- What does write the datapath (a cycle, the micro-operations it is made of, the timer's step) has no command word
(spec/30_encoding R90). -/
theorem leavesDatapath_nextState {i : Instr} {w : BitVec 48} (h : encode i = .cmd48 w) (s : State) :
    LeavesDatapath s (nextState i s) := by
  cases i with
  | arm sel => exact leavesDatapath_armCmd sel s
  | disarm => exact (leavesDatapath_disarm s).trans .of_eq
  | disarmErr sel => exact leavesDatapath_disarmErrCmd sel s
  | evalLim => exact (leavesDatapath_evalLim s).trans .of_eq
  | maxTorque => exact (leavesDatapath_torqueRead s).trans .of_eq
  | updGains => exact leavesDatapath_whenIdle _ (fun _ => .of_eq) s
  | calRun => exact leavesDatapath_whenIdle _ leavesDatapath_calRunIdle s
  | calR =>
    exact leavesDatapath_whenIdle _
      (fun x => LeavesDatapath.trans (t := setSeq false x) .of_eq (leavesDatapath_startR _)) s
  | calL =>
    exact leavesDatapath_whenIdle _
      (fun x => LeavesDatapath.trans (t := setSeq false x) .of_eq (leavesDatapath_startL _)) s
  | calPoll => exact leavesDatapath_calPoll s
  | cfgWr sel data => exact leavesDatapath_cfgWr sel data s
  | regRd sel => exact leavesDatapath_regRd sel s
  | nop | clrErr | getR | getL => exact .of_eq
  | upd a b c => cases h
  | timEvent | applyPwm | sanitize | adc2amp | infer | dcfUpdate | dcfValid | correct | leakChk | magChk | ibusChk
  | duty2ccr | lawResetR | lawMeasR | lawOutR | lawResetL | lawMeasL | lawOutL | lawResetX | lawMeasX | lawOutX =>
    cases h

/-- Settles O19: a command goes to its next state, and on every way there the datapath stands. -/
theorem commandsLeaveDatapath : Obligations.CommandsLeaveDatapath := by
  intro i w s t hw he
  rw [eq_nextState_of_exec he]
  obtain ⟨hdata, hmoe, haoe⟩ := leavesDatapath_nextState hw s
  simp only [datapath, Prod.mk.injEq] at hdata
  obtain ⟨⟨hpar, hts, hdown, hdcf⟩, ⟨hmeas, hleak, hbus⟩, ⟨hsh, hact, huif, hdir⟩⟩ := hdata
  exact ⟨hts, hdown, hdcf, hmeas, hleak, hbus, hsh, hact, huif, hdir, hmoe, haoe, hpar⟩

end Sys2Proof.Proofs
